-- ==== Sys2Proof/Word.lean ====
section
/-! DEFINITION. The word types of the display adapter (spec/00_scope.md R10; 30_encoding.md R59, R62). -/

namespace Sys2Proof

/-- `u8`, a byte (R10). -/
abbrev Byte := BitVec 8

/-- `u32`: a bus address (R58), an offset (R60), an index (R61). -/
abbrev Word := BitVec 32

/-- The 4-bit operation code of a request (R59). -/
abbrev Opc := BitVec 4

/-- The 36-bit decode key `opc[3:0] ‖ f[31:0]` (R62). -/
abbrev Key := BitVec 36

/-- A 32-bit vsync interrupt message (R69). -/
abbrev Msg := BitVec 32

end Sys2Proof
end

