-- ==== Sys2Proof/Config.lean ====
section
/-! DEFINITION. What one instance of the device fixes (R9, R18), the parameters with the values the spec
takes (R9), and the open host parameter (R115).
The numeric constants of R8 stand in Machine/Constants.lean. -/

namespace Sys2Proof

/-- The slot of an instance, one of {0, 1, 2, 3} (R18). -/
inductive Slot where
  | slot0 | slot1 | slot2 | slot3
deriving DecidableEq, Repr

/-- `FIRE_POLICY` (R9, R92, R93). -/
inductive FirePolicy where
  /-- At most one crossing in a TICK (R92), the default. -/
  | singleFire
  /-- One crossing for every period passed (R93). -/
  | perCrossing
deriving DecidableEq, Repr

namespace Config

/-- `ADDR_W` (R9, R27, D2): the width of a bus address where the host names none. -/
def addrWDefault : Nat := 32

/-- The width of `clockHz` and of `n` (R9, D14) where the host names none. -/
def tickWDefault : Nat := 32

/-- `CNT_W` (R9, R19, D13): the width of the cycle counter where the host names none. -/
def cntWDefault : Nat := 32

/-- `REFRESH_HZ` (R9, R90, D9): the refresh rate where the host names none. -/
def refreshHzDefault : Nat := 25

/-- `FIRE_POLICY` where the host names none: `SingleFire` (R9, R92). -/
def firePolicyDefault : FirePolicy := .singleFire

/-- `BUS_ERR_FATAL` (R115, D28): whether the bus stops on an AddressingError. The spec leaves it OPEN
to the host, so it has no body: nothing can be proved of its value. The device never reads it;
Safety.lean uses it to say what the bus may do after an error result. -/
opaque busErrFatal : Bool

end Config

end Sys2Proof
end

