-- ==== Sys2Proof/Syntax.lean ====
section
/-! DEFINITION. The requests the device receives: as operations (`Instr`, one constructor for each row of
the opcode table, R63), as encoded words (R62), as they stand on the ports (R58), and as written
lines (R74). -/

namespace Sys2Proof

/-- One operation of the device: a row of R63 with its operands.

`off` is the row's field `off = (addr - base(slot)) mod 2^32` (R60) of a bus request; the bus address
is `base(slot) + off` again (assumption 5). `k` is the index of a byte-wise exposed read. `clockHz` and
`n` are naturals of the width of the tick port (R9, R10; `Request.fits`). -/
inductive Instr where
  /-- VRAM_RD (R84). -/
  | vramRd (off : Word)
  /-- SETUP_RD (R85). -/
  | setupRd
  /-- BUS_RD_NOWIN (R80). -/
  | busRdNowin (off : Word)
  /-- VRAM_WR (R86). -/
  | vramWr (off : Word) (data : Byte)
  /-- SETUP_WR (R87). -/
  | setupWr (data : Byte)
  /-- BUS_WR_NOWIN (R80). -/
  | busWrNowin (off : Word) (data : Byte)
  /-- TICK (R91). -/
  | tick (clockHz n : Nat)
  /-- CONFIG_WR (R101). -/
  | configWr (blink userFont vsyncEn : Bool)
  /-- EXPOSED_RD (R107). -/
  | exposedRd
  /-- EXPOSED_RDB (R108). -/
  | exposedRdb (k : Word)
  /-- EXPOSED_RDB_NOWIN (R109). -/
  | exposedRdbNowin (k : Word)
  /-- MODE_RD (R102). -/
  | modeRd
  /-- TEXT_RD (R103). -/
  | textRd
  /-- BLINK_RD (R104). -/
  | blinkRd
  /-- USERFONT_RD (R105). -/
  | userfontRd
  /-- IDENT_RD (R106). -/
  | identRd
  /-- REGIONS_RD (R110). -/
  | regionsRd
deriving DecidableEq, Repr

/-- The side operands that travel beside a key (R61, R62). -/
structure Side where
  data     : Byte := 0
  clockHz  : Nat := 0
  /-- `none` where the request gives no cycle count: it is then 1 (R61, R75). -/
  n        : Option Nat := none
  blink    : Bool := false
  userFont : Bool := false
  vsyncEn  : Bool := false
deriving DecidableEq, Repr

/-- A request as R76 encodes it: its key, followed by its side operands. -/
structure Encoded where
  key  : Key
  side : Side
deriving DecidableEq, Repr

/-- The two regions of the device (R77). -/
inductive RegionId where
  | vram | setup
deriving DecidableEq, Repr

/-- The kinds of access an error result names (R115). -/
inductive AccessKind where
  | read | write | exposedRead
deriving DecidableEq, Repr

/-- A request as it stands on a port, before the device decodes it (R58). Each format reads its own
fields and ignores the others. -/
structure Request where
  opc    : Opc
  /-- BUS: the bus address. -/
  addr   : Word := 0
  /-- BUS: how many bytes the access asks for; only 1 is defined (R35, R37). -/
  width  : Nat := 1
  /-- BUS: the region whose operation the bus calls directly (R83), or `none` through the dispatcher. -/
  region : Option RegionId := none
  /-- ACC: the index of EXPOSED_RDB. -/
  k      : Word := 0
  side   : Side := {}
deriving DecidableEq, Repr

/-- The written requests of R74. -/
inductive Line where
  /-- `RD8 addr` -/
  | rd8 (addr : Word)
  /-- `WR8 addr, val` -/
  | wr8 (addr : Word) (val : Byte)
  /-- `TICK clockHz, n`, or `TICK clockHz` with no second operand (R75). -/
  | tick (clockHz : Nat) (n : Option Nat)
  /-- `CFG blink, userFont, vsyncEn` -/
  | cfg (b u v : Bool)
  /-- `XRD` -/
  | xrd
  /-- `XRDB k` -/
  | xrdb (k : Word)
  /-- `MODE` -/
  | mode
  /-- `TEXT` -/
  | text
  /-- `BLINK` -/
  | blinkAttr
  /-- `UFONT` -/
  | ufont
  /-- `IDENT` -/
  | ident
  /-- `REGIONS` -/
  | regions
deriving DecidableEq, Repr

end Sys2Proof
end

