-- ==== Sys2Proof/Machine/State.lean ====
section
/-! DEFINITION. What the device holds (10_state.md R17), what a step answers (R12, R67), the reasons a
request stops (R117, R118), and the state right after construction (R31, R133). -/

namespace Sys2Proof.Machine

/-- A buffer of `VRAM_SIZE` bytes as plain data: the cells (offset, byte) that differ from what an
unlisted offset reads as, offsets strictly rising (`Memory.wf` in Ops.lean). -/
abbrev Memory := List Host.Cell

/-- The model-only faults (R117). They name requests whose hardware behaviour the source does not
give; the device's state is unchanged and the machine performs no further request. -/
inductive Fault where
  /-- Raised by TICK when `clockHz div REFRESH_HZ = 0`, that is `clockHz < 25` at 25 Hz (R90, D11). Safe: the machine
  stops where the hardware may go on. -/
  | zeroThreshold
  /-- Raised by TICK when `cnt + n > 2^CNT_W - 1` (R97, D13). Safe: the machine stops where the hardware
  may go on. -/
  | counterOverflow
deriving DecidableEq, Repr

/-- The refusals (R118): requests the spec gives no meaning, and constructions that make no device. -/
inductive Refusal where
  /-- An instruction whose meaning has not been written. No arm of `exec` raises it. Safe. -/
  | notModelled (mnemonic : String)
  /-- Raised by a request with operation code 0xC .. 0xF (R65). It changes no device state. Unsafe for a
  claim without the premise that `refused` stays false (assumption 7). -/
  | reservedOpcode
  /-- Raised by a bus request of a width other than one byte (R37). It changes no device state. Unsafe
  for a claim without the premise that `refused` stays false (assumption 7). -/
  | wideAccess
  /-- Raised by construction with a slot outside {0, 1, 2, 3} (R133): no device. Safe. -/
  | invalidSlot
  /-- Raised by construction when the two buffers cannot be allocated (R116): no device. Safe. -/
  | resourceExhaustion
deriving DecidableEq, Repr

/-- The error result of R115. -/
structure AddressingError where
  code   : Nat
  /-- The requested address, or the index `k` for `exposedRead`. -/
  addr   : Word
  kind   : AccessKind
  /-- The region called directly, or `none` from the dispatcher. -/
  region : Option RegionId
deriving DecidableEq, Repr

/-- The identity tuple (R68). -/
structure Identity where
  deviceClass   : BitVec 8
  builderId     : BitVec 16
  deviceId      : BitVec 16
  deviceVersion : BitVec 16
deriving DecidableEq, Repr

/-- The window of a region (R77). -/
structure Window where
  begin : Word
  size  : Nat
deriving DecidableEq, Repr

/-- The responses of R67. -/
inductive Response where
  | ok
  | byte (b : Byte)
  /-- The `VRAM_SIZE` bytes of EXPOSED_RD, as a buffer; `Memory.bytes` is the sequence itself. -/
  | buffer (m : Memory)
  | mode (m : BitVec 2)
  | flag (b : Bool)
  | ident (t : Identity)
  | regions (ws : List Window)
  | addressingError (e : AddressingError)
deriving DecidableEq, Repr

/-- One request of the history with what it was answered (R30). -/
structure Entry where
  request : Request
  /-- `none` where no response is given: a refused or faulting request (R65, R117). -/
  resp    : Option Response
  /-- The messages signalled during the step, in order. -/
  msgs    : List Msg
  fault   : Option Fault := none
  refusal : Option Refusal := none
deriving DecidableEq, Repr

/-- The device (R17), the outputs of its last step (R12), the bookkeeping of R30, the requests the host
has issued and the device has not yet performed (R49), and the parameters it was built with (R9,
R133). -/
structure State where
  /-- `slot` (R18). -/
  slot           : Slot
  /-- `cnt`, the cycle counter, a natural below `2^CNT_W` (R10, R19; `State.counterFits` in
  Safety.lean). -/
  cnt            : Nat
  /-- `setupReg`, the Setup Register's stored byte (R20). -/
  setupReg       : Byte
  /-- `videoMode` (R21). -/
  videoMode      : BitVec 2
  /-- `isTextMode` (R21). -/
  isTextMode     : Bool
  /-- `blinkAttribute` (R22). -/
  blinkAttribute : Bool
  /-- `userFont` (R22). -/
  userFont       : Bool
  /-- `vsyncEn`, vsyncInterruptEnabled (R22). -/
  vsyncEn        : Bool
  /-- `Live`, the live buffer (R24). -/
  live           : Memory
  /-- `Exposed`, the exposed buffer (R25). -/
  exposed        : Memory
  /-- `fault` (R30): never cleared once set. -/
  fault          : Option Fault
  /-- `refused` (R30): never cleared once set. -/
  refused        : Bool
  /-- `history` (R30), oldest first. -/
  history        : List Entry
  /-- `resp` of the last step (R12): the response port. -/
  resp           : Option Response
  /-- `events` of the last step (R12): the messages on the interrupt output. -/
  events         : List Msg
  /-- The host's requests in the order issued (R49), the next one first. -/
  pending        : List Request
  /-- `FIRE_POLICY` (R9), fixed by construction. -/
  firePolicy     : FirePolicy
  /-- `REFRESH_HZ` (R9), fixed by construction. -/
  refreshHz      : Nat
  /-- `CNT_W` (R9), fixed by construction. -/
  cntW           : Nat
  /-- `ADDR_W` (R9), fixed by construction: the width of the addresses the bus port takes. -/
  addrW          : Nat
  /-- The width of `clockHz` and of `n` (R9), fixed by construction. -/
  tickW          : Nat
deriving DecidableEq, Repr

/-- The device right after `CONSTRUCT(0, 0, 0, 1)` with the parameters of the test vectors (R31, R133,
V-R1). `videoMode`, `isTextMode` and `exposed` are the spec's values; the arguments and the OPEN
parameters are chosen (assumptions 1 to 4). -/
def State.reset : State where
  slot := .slot0
  cnt := 0
  setupReg := 0
  videoMode := 0
  isTextMode := true
  blinkAttribute := false
  userFont := false
  vsyncEn := true
  live := []
  exposed := []
  fault := none
  refused := false
  history := []
  resp := none
  events := []
  pending := []
  firePolicy := Config.firePolicyDefault
  refreshHz := Config.refreshHzDefault
  cntW := Config.cntWDefault
  addrW := Config.addrWDefault
  tickW := Config.tickWDefault

end Sys2Proof.Machine
end

