-- ==== Sys2Proof/Machine/Flags.lean ====
section
/-! DEFINITION. The status flags (R23): what a Setup Register byte decodes to (R70, R71), and the two
operations that write flags. The device has no condition codes. -/

namespace Sys2Proof.Machine

/-- MODE, bits 1:0 of the Setup Register byte: `v & 0b11` (R70). -/
def setupMode (v : Byte) : BitVec 2 := (v &&& 0b11#8).setWidth 2

/-- Bit 2 of the Setup Register byte: `(v & 0b100) == 0` selects text mode (R70). -/
def setupText (v : Byte) : Bool := v &&& 0b100#8 == 0#8

/-- `modeUpdate(s, v)` (R82, R87). -/
def State.modeUpdate (s : State) (v : Byte) : State :=
  { s with videoMode := setupMode v, isTextMode := setupText v }

/-- The three configuration flags, written together (R101). -/
def State.setFlags (s : State) (blink userFont vsyncEn : Bool) : State :=
  { s with blinkAttribute := blink, userFont := userFont, vsyncEn := vsyncEn }

end Sys2Proof.Machine
end

