-- ==== Sys2Proof/Machine/Constants.lean ====
section
/-! DEFINITION. The fixed constants and lookup tables of the device (R2, R8, R9). -/

namespace Sys2Proof.Machine

/-- `VRAM_SIZE` (R8): the bytes of the Video Memory window and of each buffer. -/
def vramSize : Nat := 0x4400

/-- `SETUP_OFFSET` (R8). -/
def setupOffset : Word := 0xCC00#32

/-- `SETUP_SIZE` (R8). -/
def setupSize : Nat := 1

/-- `base(slot)` (R8). -/
def base : Slot → Word
  | .slot0 => 0xFF0A0000#32
  | .slot1 => 0xFF0B0000#32
  | .slot2 => 0xFF0C0000#32
  | .slot3 => 0xFF0D0000#32

/-- `irqMsg(slot)` (R8). -/
def irqMsg : Slot → Msg
  | .slot0 => 0x0000005A#32
  | .slot1 => 0x0000105A#32
  | .slot2 => 0x0000205A#32
  | .slot3 => 0x0000305A#32

/-- The number of a slot. -/
def slotNumber : Slot → Nat
  | .slot0 => 0
  | .slot1 => 1
  | .slot2 => 2
  | .slot3 => 3

/-- The slot a construction argument names, if it names one (R133). -/
def slotOf : Nat → Option Slot
  | 0 => some .slot0
  | 1 => some .slot1
  | 2 => some .slot2
  | 3 => some .slot3
  | _ => none

/-- The code of an AddressingError (R114, D6). -/
def addressingErrorCode : Nat := 1

/-- The code of a ResourceExhaustion error (R116, D6). -/
def resourceExhaustionCode : Nat := 2

/-- The device class of the identity tuple, the graphics class (R2). -/
def deviceClass : BitVec 8 := 0x0E#8

/-- The builder id of the identity tuple (R2). -/
def builderId : BitVec 16 := 0x0000#16

/-- The device id of the identity tuple (R2). -/
def deviceId : BitVec 16 := 0x0001#16

/-- The device version of the identity tuple (R2). -/
def deviceVersion : BitVec 16 := 0x0000#16

end Sys2Proof.Machine
end

