-- ==== Sys2Proof/WellFormed.lean ====
section
/-! DEFINITION. The conditions on `f` of R63 that a row's operands meet. -/

namespace Sys2Proof

open Machine

/-- An offset or index below `VRAM_SIZE`: the guard `f < 0x4400` of R63. -/
def inVram (f : Word) : Bool := f.toNat < vramSize

/-- A bus offset in neither window: what is left for the "lowest" rows of R63. -/
def noWindow (f : Word) : Bool := !inVram f && f != setupOffset

/-- The operation is one that some key selects (R63, R64). -/
def Instr.wellFormed : Instr → Bool
  | .vramRd off => inVram off
  | .setupRd => true
  | .busRdNowin off => noWindow off
  | .vramWr off _ => inVram off
  | .setupWr _ => true
  | .busWrNowin off _ => noWindow off
  | .tick _ _ => true
  | .configWr _ _ _ => true
  | .exposedRd => true
  | .exposedRdb k => inVram k
  | .exposedRdbNowin k => !inVram k
  | .modeRd => true
  | .textRd => true
  | .blinkRd => true
  | .userfontRd => true
  | .identRd => true
  | .regionsRd => true

end Sys2Proof
end

