-- ==== Sys2Proof/Decode.lean ====
section
/-! DEFINITION. From a request to its operation and back (30_encoding.md R58 to R76). -/

namespace Sys2Proof

open Machine

/-- Why a key names no operation. -/
inductive DecodeError where
  /-- The operation code is one of 0xC .. 0xF (R65). -/
  | reservedOpcode
deriving DecidableEq, Repr

/-! ### The key (R62) -/

/-- `key = opc[3:0] ‖ f[31:0]` (R62). -/
def mkKey (opc : Opc) (f : Word) : Key := (opc ++ f).cast (by decide)

/-- `key[35:32]`. -/
def keyOpc (key : Key) : Opc := key.extractLsb' 32 4

/-- `key[31:0]`. -/
def keyF (key : Key) : Word := key.extractLsb' 0 32

/-! ### Decoding (R63, R64, R65) -/

/-- Codes 0x0: the bus reads, the guarded rows first (R64). -/
def decodeBusRead (f : Word) : Instr :=
  if inVram f then .vramRd f else if f = setupOffset then .setupRd else .busRdNowin f

/-- Code 0x1: the bus writes, the guarded rows first (R64). -/
def decodeBusWrite (f : Word) (data : Byte) : Instr :=
  if inVram f then .vramWr f data else if f = setupOffset then .setupWr data else .busWrNowin f data

/-- Code 0x5: the byte-wise exposed reads, the guarded row first (R64). -/
def decodeExposedByte (k : Word) : Instr :=
  if inVram k then .exposedRdb k else .exposedRdbNowin k

/-- The operation that a key with its side operands names (R59, R63), total on every key (R64). -/
def decode (e : Encoded) : Except DecodeError Instr :=
  match (keyOpc e.key).toNat with
  | 0x0 => .ok (decodeBusRead (keyF e.key))
  | 0x1 => .ok (decodeBusWrite (keyF e.key) e.side.data)
  | 0x2 => .ok (.tick e.side.clockHz (e.side.n.getD 1))
  | 0x3 => .ok (.configWr e.side.blink e.side.userFont e.side.vsyncEn)
  | 0x4 => .ok .exposedRd
  | 0x5 => .ok (decodeExposedByte (keyF e.key))
  | 0x6 => .ok .modeRd
  | 0x7 => .ok .textRd
  | 0x8 => .ok .blinkRd
  | 0x9 => .ok .userfontRd
  | 0xA => .ok .identRd
  | 0xB => .ok .regionsRd
  | _ => .error .reservedOpcode

/-! ### Encoding (R62, R76) -/

/-- The words of an operation: its key, with 0 in an ignored `f`, and its side operands. -/
def encode : Instr → Encoded
  | .vramRd off => ⟨mkKey 0x0 off, {}⟩
  | .setupRd => ⟨mkKey 0x0 setupOffset, {}⟩
  | .busRdNowin off => ⟨mkKey 0x0 off, {}⟩
  | .vramWr off data => ⟨mkKey 0x1 off, { data := data }⟩
  | .setupWr data => ⟨mkKey 0x1 setupOffset, { data := data }⟩
  | .busWrNowin off data => ⟨mkKey 0x1 off, { data := data }⟩
  | .tick clockHz n => ⟨mkKey 0x2 0, { clockHz := clockHz, n := some n }⟩
  | .configWr blink userFont vsyncEn =>
    ⟨mkKey 0x3 0, { blink := blink, userFont := userFont, vsyncEn := vsyncEn }⟩
  | .exposedRd => ⟨mkKey 0x4 0, {}⟩
  | .exposedRdb k => ⟨mkKey 0x5 k, {}⟩
  | .exposedRdbNowin k => ⟨mkKey 0x5 k, {}⟩
  | .modeRd => ⟨mkKey 0x6 0, {}⟩
  | .textRd => ⟨mkKey 0x7 0, {}⟩
  | .blinkRd => ⟨mkKey 0x8 0, {}⟩
  | .userfontRd => ⟨mkKey 0x9 0, {}⟩
  | .identRd => ⟨mkKey 0xA 0, {}⟩
  | .regionsRd => ⟨mkKey 0xB 0, {}⟩

/-! ### The opcode table (R63; opcode_table.json) -/

/-- The mnemonic of an operation, as the opcode table spells it. -/
def mnemonic : Instr → String
  | .vramRd _ => "VRAM_RD"
  | .setupRd => "SETUP_RD"
  | .busRdNowin _ => "BUS_RD_NOWIN"
  | .vramWr _ _ => "VRAM_WR"
  | .setupWr _ => "SETUP_WR"
  | .busWrNowin _ _ => "BUS_WR_NOWIN"
  | .tick _ _ => "TICK"
  | .configWr _ _ _ => "CONFIG_WR"
  | .exposedRd => "EXPOSED_RD"
  | .exposedRdb _ => "EXPOSED_RDB"
  | .exposedRdbNowin _ => "EXPOSED_RDB_NOWIN"
  | .modeRd => "MODE_RD"
  | .textRd => "TEXT_RD"
  | .blinkRd => "BLINK_RD"
  | .userfontRd => "USERFONT_RD"
  | .identRd => "IDENT_RD"
  | .regionsRd => "REGIONS_RD"

/-- A row of the opcode table: its pattern over the key, and whether the guard `f < 0x4400` stands
beside it. -/
structure Row where
  mnemonic : String
  pattern  : Key
  mask     : Key
  guarded  : Bool := false
deriving DecidableEq, Repr

/-- The rows of priority "normal". -/
def normalRows : List Row :=
  [ ⟨"VRAM_RD",     0x000000000#36, 0xFFFFF8000#36, true⟩,
    ⟨"SETUP_RD",    0x00000CC00#36, 0xFFFFFFFFF#36, false⟩,
    ⟨"VRAM_WR",     0x100000000#36, 0xFFFFF8000#36, true⟩,
    ⟨"SETUP_WR",    0x10000CC00#36, 0xFFFFFFFFF#36, false⟩,
    ⟨"TICK",        0x200000000#36, 0xF00000000#36, false⟩,
    ⟨"CONFIG_WR",   0x300000000#36, 0xF00000000#36, false⟩,
    ⟨"EXPOSED_RD",  0x400000000#36, 0xF00000000#36, false⟩,
    ⟨"EXPOSED_RDB", 0x500000000#36, 0xFFFFF8000#36, true⟩,
    ⟨"MODE_RD",     0x600000000#36, 0xF00000000#36, false⟩,
    ⟨"TEXT_RD",     0x700000000#36, 0xF00000000#36, false⟩,
    ⟨"BLINK_RD",    0x800000000#36, 0xF00000000#36, false⟩,
    ⟨"USERFONT_RD", 0x900000000#36, 0xF00000000#36, false⟩,
    ⟨"IDENT_RD",    0xA00000000#36, 0xF00000000#36, false⟩,
    ⟨"REGIONS_RD",  0xB00000000#36, 0xF00000000#36, false⟩ ]

/-- The rows of priority "lowest": they apply only when no other row of their code matches. -/
def lowestRows : List Row :=
  [ ⟨"BUS_RD_NOWIN",      0x000000000#36, 0xF00000000#36, false⟩,
    ⟨"BUS_WR_NOWIN",      0x100000000#36, 0xF00000000#36, false⟩,
    ⟨"EXPOSED_RDB_NOWIN", 0x500000000#36, 0xF00000000#36, false⟩ ]

/-- The row's pattern and guard hold of the key. -/
def Row.hits (r : Row) (key : Key) : Bool :=
  (key &&& r.mask == r.pattern) && (!r.guarded || inVram (keyF key))

/-- The rows of the table that a key selects: the normal rows that hit, or else the lowest ones. -/
def selectedRows (key : Key) : List Row :=
  match normalRows.filter (·.hits key) with
  | [] => lowestRows.filter (·.hits key)
  | rows => rows

/-! ### Requests on the ports (R58, R60) -/

/-- The request is of format BUS (R58, R59). -/
def Request.isBus (q : Request) : Bool := q.opc == 0x0#4 || q.opc == 0x1#4

/-- `off = (addr - base(slot)) mod 2^32` (R60). -/
def busOffset (slot : Slot) (addr : Word) : Word := addr - base slot

/-- The bus address whose offset is `off`: R60 read from right to left. -/
def busAddress (slot : Slot) (off : Word) : Word := base slot + off

/-- The field `f` of a request's key (R62): the offset on the bus, the index for EXPOSED_RDB, and 0
where it is ignored. -/
def Request.f (q : Request) (slot : Slot) : Word :=
  if q.isBus then busOffset slot q.addr else if q.opc = 0x5#4 then q.k else 0

/-- The request's fields are of the widths that the ports have (R9): a bus address of `addrW` bits, a clock
rate and a cycle count of `tickW` bits. -/
def Request.fits (addrW tickW : Nat) (q : Request) : Bool :=
  (!q.isBus || q.addr.toNat < 2 ^ addrW) &&
  (q.opc != 0x2#4 || (q.side.clockHz < 2 ^ tickW && q.side.n.getD 1 < 2 ^ tickW))

/-- The request as its key and side operands (R62, R76). -/
def Request.encoded (q : Request) (slot : Slot) : Encoded := ⟨mkKey q.opc (q.f slot), q.side⟩

/-- The port request that a key with its side operands stands for: the inverse of
`Request.encoded`. -/
def Request.ofEncoded (slot : Slot) (e : Encoded) : Request :=
  { opc := keyOpc e.key, addr := busAddress slot (keyF e.key), k := keyF e.key, side := e.side }

/-- The port request a written line stands for (R74, R75). -/
def Line.request : Line → Request
  | .rd8 addr => { opc := 0x0, addr := addr }
  | .wr8 addr val => { opc := 0x1, addr := addr, side := { data := val } }
  | .tick clockHz n => { opc := 0x2, side := { clockHz := clockHz, n := n } }
  | .cfg b u v => { opc := 0x3, side := { blink := b, userFont := u, vsyncEn := v } }
  | .xrd => { opc := 0x4 }
  | .xrdb k => { opc := 0x5, k := k }
  | .mode => { opc := 0x6 }
  | .text => { opc := 0x7 }
  | .blinkAttr => { opc := 0x8 }
  | .ufont => { opc := 0x9 }
  | .ident => { opc := 0xA }
  | .regions => { opc := 0xB }

/-! ### The host's word for an opcode-table row -/

/-- The request whose key is the low 36 bits of the table's word `w` and whose side operands are zero
(assumption 14). -/
def tableWord (nbits w : Nat) : Encoded := ⟨BitVec.ofNat 36 (w % 2 ^ nbits), { n := some 0 }⟩

/-- The operation the decoder reads from an opcode-table word. -/
def decodeTableWord (nbits w : Nat) : Option Instr :=
  match decode (tableWord nbits w) with
  | .ok i => some i
  | .error _ => none

end Sys2Proof
end

