-- ==== Sys2Proof/Machine/Operands.lean ====
section
/-! DEFINITION. The operand arithmetic of the requests: windows and their containment test (R77 to R79),
the threshold, the counter's sum and the crossings of a TICK (R90 to R93). Bus offsets are in
Decode.lean (R60). -/

namespace Sys2Proof.Machine

/-- The window of a region at a slot (R77). -/
def window (slot : Slot) : RegionId → Window
  | .vram => ⟨base slot, vramSize⟩
  | .setup => ⟨base slot + setupOffset, setupSize⟩

/-- `contains(r, addr)` (R79), the end of the window computed without wrap. -/
def Window.contains (w : Window) (addr : Word) : Bool :=
  w.begin.toNat ≤ addr.toNat && addr.toNat < w.begin.toNat + w.size

/-- The offset of an address inside a window (R14). -/
def Window.offset (w : Window) (addr : Word) : Nat := addr.toNat - w.begin.toNat

/-- `T = clockHz div REFRESH_HZ` (R90); 0 at a rate of 0 (assumption 19). -/
def threshold (refreshHz clockHz : Nat) : Nat := clockHz / refreshHz

/-- The largest counter value, `2^CNT_W - 1` (R97). -/
def cntMax (cntW : Nat) : Nat := 2 ^ cntW - 1

/-- `cnt + n`, exact, no wrap (R91). -/
def tickSum (cnt n : Nat) : Nat := cnt + n

/-- The crossings `k` of a TICK whose sum is `c` (R91): the one test of R92, or every period of R93. -/
def crossings : FirePolicy → Nat → Nat → Nat
  | .singleFire, c, t => if t ≤ c then 1 else 0
  | .perCrossing, c, t => c / t

/-- The counter after `k` crossings, `c - k * T` (R91). -/
def residue (c k t : Nat) : Nat := c - k * t

end Sys2Proof.Machine
end

