-- ==== Sys2Proof/Machine/Ops.lean ====
section
/-! DEFINITION. The shared operations over buffers, regions and outputs.

The device takes no trap and saves no state (R123), so no exception entry or return stands here: an
error is a returned result (`State.raise`), and the vsync interrupt is a message handed out during the
step (`State.snapshot`). -/

namespace Sys2Proof.Machine

/-! ### Buffers -/

/-- What an unlisted offset of a buffer reads as (assumption 3). -/
def Memory.fill : Byte := 0#8

/-- Byte `k` of a buffer. -/
def Memory.read : Memory → Nat → Byte
  | [], _ => Memory.fill
  | (a, b) :: rest, k => if a = k then b else Memory.read rest k

/-- A cell in front of a buffer, left out where it says what an unlisted offset reads as. -/
def Memory.put (k : Nat) (v : Byte) (rest : Memory) : Memory :=
  if v = Memory.fill then rest else (k, v) :: rest

/-- Byte `k` of a buffer becomes `v`. -/
def Memory.write : Memory → Nat → Byte → Memory
  | [], k, v => Memory.put k v []
  | (a, b) :: rest, k, v =>
    if k < a then Memory.put k v ((a, b) :: rest)
    else if k = a then Memory.put k v rest
    else (a, b) :: Memory.write rest k v

/-- The one form of a buffer: offsets strictly rising and below `VRAM_SIZE`, and no cell that says what
an unlisted offset reads as. -/
abbrev Memory.wf (m : Memory) : Prop :=
  m.Pairwise (fun x y => x.1 < y.1) ∧ ∀ c ∈ m, c.1 < vramSize ∧ c.2 ≠ Memory.fill

/-- The buffer as the sequence of its `VRAM_SIZE` bytes, index 0 first (R67). -/
def Memory.bytes (m : Memory) : List Byte := (List.range vramSize).map m.read

/-- The cells of the bytes `bs` from offset `k` on. -/
def Memory.ofBytesFrom (k : Nat) : List Byte → Memory
  | [] => []
  | b :: bs => if k < vramSize then Memory.put k b (Memory.ofBytesFrom (k + 1) bs) else []

/-- The buffer that holds the bytes `bs` from offset 0 on, and the fill byte after them. -/
def Memory.ofBytes (bs : List Byte) : Memory := Memory.ofBytesFrom 0 bs

/-! ### Outputs -/

/-- The step's response and messages (R12). -/
def State.answer (s : State) (r : Response) (msgs : List Msg) : State :=
  { s with resp := some r, events := msgs }

/-- The operation ends with the response `r` and signals nothing. -/
def State.respond (s : State) (r : Response) : Host.Outcome State Fault Refusal :=
  .next (s.answer r [])

/-- `raise AddressingError(info)` (R11, R115): the error result, with no change of device state. -/
def State.raise (s : State) (addr : Word) (kind : AccessKind) (region : Option RegionId) :
    Host.Outcome State Fault Refusal :=
  s.respond (.addressingError ⟨addressingErrorCode, addr, kind, region⟩)

/-! ### Regions (R79 to R82) -/

/-- `Live[k] <- v`. -/
def State.storeLive (s : State) (k : Nat) (v : Byte) : State :=
  { s with live := s.live.write k v }

/-- `setupReg <- v`. -/
def State.storeSetup (s : State) (v : Byte) : State := { s with setupReg := v }

/-- `regionRead(s, r, addr)` (R81), for an address in the region's window. -/
def regionRead (s : State) (r : RegionId) (addr : Word) : Byte :=
  match r with
  | .vram => s.live.read ((window s.slot .vram).offset addr)
  | .setup => s.setupReg

/-- `regionWrite(s, r, addr, v)` (R82), for an address in the region's window. -/
def regionWrite (s : State) (r : RegionId) (addr : Word) (v : Byte) : State :=
  match r with
  | .vram => s.storeLive ((window s.slot .vram).offset addr) v
  | .setup => (s.storeSetup v).modeUpdate v

/-- `readByte(addr)` of a region (R79, R83): an address outside its window is an AddressingError of that
region. -/
def readByte (r : RegionId) (addr : Word) (s : State) : Host.Outcome State Fault Refusal :=
  if (window s.slot r).contains addr then s.respond (.byte (regionRead s r addr))
  else s.raise addr .read (some r)

/-- `writeByte(addr, v)` of a region (R79, R83). -/
def writeByte (r : RegionId) (addr : Word) (v : Byte) (s : State) :
    Host.Outcome State Fault Refusal :=
  if (window s.slot r).contains addr then (regionWrite s r addr v).respond .ok
  else s.raise addr .write (some r)

/-- The region that the dispatcher selects for an address, trying `[VRAM, SETUP]` in order (R78, R80). -/
def regionAt (slot : Slot) (addr : Word) : Option RegionId :=
  [RegionId.vram, RegionId.setup].find? fun r => (window slot r).contains addr

/-- `dispatch(s, read, addr)` (R80). -/
def dispatchRead (addr : Word) (s : State) : Host.Outcome State Fault Refusal :=
  match regionAt s.slot addr with
  | some r => s.respond (.byte (regionRead s r addr))
  | none => s.raise addr .read none

/-- `dispatch(s, write, addr, data)` (R80). -/
def dispatchWrite (addr : Word) (v : Byte) (s : State) : Host.Outcome State Fault Refusal :=
  match regionAt s.slot addr with
  | some r => (regionWrite s r addr v).respond .ok
  | none => s.raise addr .write none

/-! ### The snapshot and the vsync messages (R94 to R96) -/

/-- The messages of `k` crossings: `irqMsg(slot)` each, and none while `vsyncEn` is false (R95, R96). -/
def State.vsyncMsgs (s : State) (k : Nat) : List Msg :=
  if s.vsyncEn then List.replicate k (irqMsg s.slot) else []

/-- A TICK of sum `c`, threshold `t` and `k` crossings: the counter, then the copy of the whole live
buffer if there is a crossing, then the messages (R91, R94, R96). -/
def State.snapshot (s : State) (c k t : Nat) : State :=
  { s with
    cnt := residue c k t
    exposed := if 1 ≤ k then s.live else s.exposed }

/-! ### The exposed buffer (R108, R109) -/

/-- Byte `k` of the exposed buffer, an AddressingError where there is none. -/
def readExposed (k : Word) (s : State) : Host.Outcome State Fault Refusal :=
  if k.toNat < vramSize then s.respond (.byte (s.exposed.read k.toNat))
  else s.raise k .exposedRead none

/-! ### Bookkeeping (R30, R117, R118) -/

/-- The next request leaves the host's list. -/
def State.take (s : State) (rest : List Request) : State := { s with pending := rest }

/-- One more entry of the history. -/
def State.record (s : State) (e : Entry) : State := { s with history := s.history ++ [e] }

/-- The model sets `fault`; no response is given and nothing is signalled (R117). -/
def State.latchFault (s : State) (f : Fault) : State :=
  { s with fault := some f, resp := none, events := [] }

/-- The model sets `refused`; no response is given and nothing is signalled (R65, R118). -/
def State.latchRefusal (s : State) : State :=
  { s with refused := true, resp := none, events := [] }

end Sys2Proof.Machine
end

