-- ==== Sys2Proof/Machine/Construct.lean ====
section
/-! DEFINITION. Construction, the device's only reset (70_reset_and_hazards.md R132, R133). -/

namespace Sys2Proof.Machine

/-- The construction arguments and the open parameters (R9, R133). -/
structure ConstructArgs where
  slot        : Nat
  cfgBlink    : Bool
  cfgUserFont : Bool
  cfgVsyncEn  : Bool
  /-- `CNT_RESET` (D15). -/
  cntReset    : Nat := 0
  /-- `SETUP_INIT` (D17). -/
  setupInit   : Byte := 0
  /-- `VRAM_INIT` (D16), byte 0 first; bytes the list does not give are the fill byte. -/
  vramInit    : List Byte := []
  /-- `FIRE_POLICY` (D12). -/
  firePolicy  : FirePolicy := Config.firePolicyDefault
  /-- `REFRESH_HZ` (D9). -/
  refreshHz   : Nat := Config.refreshHzDefault
  /-- `CNT_W` (D13). -/
  cntW        : Nat := Config.cntWDefault
  /-- `ADDR_W` (D2); a request's address is a u32 (R58), so that a larger width admits no more. -/
  addrW       : Nat := Config.addrWDefault
  /-- The width of `clockHz` and of `n` (D14). -/
  tickW       : Nat := Config.tickWDefault
  /-- The host could allocate the two buffers (R116). -/
  allocated   : Bool := true
deriving DecidableEq, Repr

/-- The parameters are ones that R9 allows: a rate that can be divided by, a counter value of its width,
and 0x4400 initial bytes. -/
abbrev ConstructArgs.legal (a : ConstructArgs) : Prop :=
  0 < a.refreshHz ∧ a.cntReset < 2 ^ a.cntW ∧ a.vramInit.length = vramSize

/-- The state of R31 for the arguments `a` at the slot `slot`. -/
def constructed (a : ConstructArgs) (slot : Slot) : State where
  slot := slot
  cnt := a.cntReset
  setupReg := a.setupInit
  videoMode := 0
  isTextMode := true
  blinkAttribute := a.cfgBlink
  userFont := a.cfgUserFont
  vsyncEn := a.cfgVsyncEn
  live := Memory.ofBytes a.vramInit
  exposed := []
  fault := none
  refused := false
  history := []
  resp := none
  events := []
  pending := []
  firePolicy := a.firePolicy
  refreshHz := a.refreshHz
  cntW := a.cntW
  addrW := a.addrW
  tickW := a.tickW

/-- `CONSTRUCT` (R133): a slot outside {0, 1, 2, 3} is refused, then a failed allocation leaves no
device (R116). -/
def construct (a : ConstructArgs) : Host.Outcome State Fault Refusal :=
  match slotOf a.slot with
  | none => .refused .invalidSlot
  | some slot => if a.allocated then .next (constructed a slot) else .refused .resourceExhaustion

end Sys2Proof.Machine
end

