-- ==== Sys2Proof/Machine/BusRegions.lean ====
section
/-! DEFINITION. The bus operations (40_bus_regions.md). An `off` is turned back into the bus address
`base(slot) + off`, and the region's operation of R81 and R82 is performed at it. -/

namespace Sys2Proof.Machine

/-- VRAM_RD: the byte of the live buffer (R84). -/
def execVramRd (off : Word) (s : State) : Host.Outcome State Fault Refusal :=
  readByte .vram (busAddress s.slot off) s

/-- SETUP_RD: the stored byte, all eight bits (R85). -/
def execSetupRd (s : State) : Host.Outcome State Fault Refusal :=
  readByte .setup (busAddress s.slot setupOffset) s

/-- BUS_RD_NOWIN: the AddressingError of the dispatcher (R80). -/
def execBusRdNowin (off : Word) (s : State) : Host.Outcome State Fault Refusal :=
  s.raise (busAddress s.slot off) .read none

/-- VRAM_WR: one byte of the live buffer (R86). -/
def execVramWr (off : Word) (data : Byte) (s : State) : Host.Outcome State Fault Refusal :=
  writeByte .vram (busAddress s.slot off) data s

/-- SETUP_WR: the stored byte and the mode (R87). -/
def execSetupWr (data : Byte) (s : State) : Host.Outcome State Fault Refusal :=
  writeByte .setup (busAddress s.slot setupOffset) data s

/-- BUS_WR_NOWIN: the AddressingError of the dispatcher; the data byte goes nowhere (R80). -/
def execBusWrNowin (off : Word) (_data : Byte) (s : State) : Host.Outcome State Fault Refusal :=
  s.raise (busAddress s.slot off) .write none

end Sys2Proof.Machine
end

