-- ==== Sys2Proof/Machine/HostPorts.lean ====
section
/-! DEFINITION. The configuration port and the host accessors (42_host_ports.md). -/

namespace Sys2Proof.Machine

/-- CONFIG_WR: the three configuration flags (R101). -/
def execConfigWr (blink userFont vsyncEn : Bool) (s : State) : Host.Outcome State Fault Refusal :=
  (s.setFlags blink userFont vsyncEn).respond .ok

/-- EXPOSED_RD: the whole exposed buffer in one step (R107). -/
def execExposedRd (s : State) : Host.Outcome State Fault Refusal := s.respond (.buffer s.exposed)

/-- EXPOSED_RDB: one byte of the exposed buffer (R108). -/
def execExposedRdb (k : Word) (s : State) : Host.Outcome State Fault Refusal := readExposed k s

/-- EXPOSED_RDB_NOWIN: an index out of range (R109). -/
def execExposedRdbNowin (k : Word) (s : State) : Host.Outcome State Fault Refusal :=
  s.raise k .exposedRead none

/-- MODE_RD (R102). -/
def execModeRd (s : State) : Host.Outcome State Fault Refusal := s.respond (.mode s.videoMode)

/-- TEXT_RD (R103). -/
def execTextRd (s : State) : Host.Outcome State Fault Refusal := s.respond (.flag s.isTextMode)

/-- BLINK_RD (R104). -/
def execBlinkRd (s : State) : Host.Outcome State Fault Refusal := s.respond (.flag s.blinkAttribute)

/-- USERFONT_RD (R105). -/
def execUserfontRd (s : State) : Host.Outcome State Fault Refusal := s.respond (.flag s.userFont)

/-- IDENT_RD: the identity tuple (R106, R68). -/
def execIdentRd (s : State) : Host.Outcome State Fault Refusal :=
  s.respond (.ident ⟨deviceClass, builderId, deviceId, deviceVersion⟩)

/-- REGIONS_RD: the two windows, in the order `[VRAM, SETUP]` (R110, R78). -/
def execRegionsRd (s : State) : Host.Outcome State Fault Refusal :=
  s.respond (.regions [window s.slot .vram, window s.slot .setup])

end Sys2Proof.Machine
end

