-- ==== Sys2Proof/Machine/TickVsync.lean ====
section
/-! DEFINITION. The tick, the snapshot and the vsync interrupt (41_tick_vsync.md). -/

namespace Sys2Proof.Machine

/-- TICK (R91): the two model-only faults in the order of R119, then the crossings of the policy, the
counter, the copy and the messages. -/
def execTick (clockHz n : Nat) (s : State) : Host.Outcome State Fault Refusal :=
  if threshold s.refreshHz clockHz = 0 then .fault .zeroThreshold
  else if cntMax s.cntW < tickSum s.cnt n then .fault .counterOverflow
  else
    let c := tickSum s.cnt n
    let t := threshold s.refreshHz clockHz
    let k := crossings s.firePolicy c t
    .next ((s.snapshot c k t).answer .ok (s.vsyncMsgs k))

end Sys2Proof.Machine
end

