-- ==== Sys2Proof/Machine/Dispatch.lean ====
section
/-! DEFINITION. One arm for each operation of the opcode table (R63). -/

namespace Sys2Proof.Machine

/-- The device's state after one operation, with its response and messages in `resp` and `events` (R12). -/
def exec (i : Instr) (s : State) : Host.Outcome State Fault Refusal :=
  match i with
  | .vramRd off => Sys2Proof.Machine.execVramRd off s
  | .setupRd => Sys2Proof.Machine.execSetupRd s
  | .busRdNowin off => Sys2Proof.Machine.execBusRdNowin off s
  | .vramWr off data => Sys2Proof.Machine.execVramWr off data s
  | .setupWr data => Sys2Proof.Machine.execSetupWr data s
  | .busWrNowin off data => Sys2Proof.Machine.execBusWrNowin off data s
  | .tick clockHz n => Sys2Proof.Machine.execTick clockHz n s
  | .configWr blink userFont vsyncEn => Sys2Proof.Machine.execConfigWr blink userFont vsyncEn s
  | .exposedRd => Sys2Proof.Machine.execExposedRd s
  | .exposedRdb k => Sys2Proof.Machine.execExposedRdb k s
  | .exposedRdbNowin k => Sys2Proof.Machine.execExposedRdbNowin k s
  | .modeRd => Sys2Proof.Machine.execModeRd s
  | .textRd => Sys2Proof.Machine.execTextRd s
  | .blinkRd => Sys2Proof.Machine.execBlinkRd s
  | .userfontRd => Sys2Proof.Machine.execUserfontRd s
  | .identRd => Sys2Proof.Machine.execIdentRd s
  | .regionsRd => Sys2Proof.Machine.execRegionsRd s

end Sys2Proof.Machine
end

