-- ==== Sys2Proof/Machine/Perform.lean ====
section
/-! DEFINITION. One request on a port: the order of its checks (R119), the direct region calls (R83), and
what the model books of it (R30, R117, R118). -/

namespace Sys2Proof.Machine

/-- A direct call of the region's operation (R83), a write where the code is 0x1. -/
def performDirect (r : RegionId) (q : Request) (s : State) : Host.Outcome State Fault Refusal :=
  if q.opc = 0x1#4 then writeByte r q.addr q.side.data s else readByte r q.addr s

/-- One request with exactly one outcome, the checks in the order of R119: decode, width, then the
operation with its own checks. -/
def perform (q : Request) (s : State) : Host.Outcome State Fault Refusal :=
  match decode (q.encoded s.slot) with
  | .error .reservedOpcode => .refused .reservedOpcode
  | .ok i =>
    if q.isBus && q.width != 1 then .refused .wideAccess
    else
      match q.isBus, q.region with
      | true, some r => performDirect r q s
      | _, _ => exec i s

/-- What the model books of a request performed in `s`: its entry in the history, and the mark of a
fault or a refusal, which leaves the device as it was in `s` (R30, R117, R118). -/
def settle (q : Request) (s : State) (o : Host.Outcome State Fault Refusal) :
    Host.Outcome State Fault Refusal :=
  match o with
  | .next t => .next (t.record { request := q, resp := t.resp, msgs := t.events })
  | .fault f =>
    .next ((s.latchFault f).record { request := q, resp := none, msgs := [], fault := some f })
  | .refused r =>
    .next (s.latchRefusal.record { request := q, resp := none, msgs := [], refusal := some r })

/-- Taking the request `q` from the host's list, performing it and booking it. -/
def serve (q : Request) (rest : List Request) (s : State) : Host.Outcome State Fault Refusal :=
  settle q (s.take rest) (perform q (s.take rest))

end Sys2Proof.Machine
end

