-- ==== Sys2Proof/Machine/Step.lean ====
section
/-! DEFINITION. One step of the machine: the host's next request, whole (R12, R49). -/

namespace Sys2Proof.Machine

/-- One step. After a fault no further request is performed (R117). With no request issued the device
does nothing: it has no clock of its own (R89) and no terminal state (R33). -/
def step (s : State) : Host.Outcome State Fault Refusal :=
  match s.fault, s.pending with
  | some f, _ => .fault f
  | none, [] => .next s
  | none, q :: rest => serve q rest s

/-- The state with the opcode-table word `w` as the host's next request, on a machine that has not
faulted, so that the next step performs exactly it (assumption 14). -/
def State.withFetchWord (s : State) (nbits w : Nat) : State :=
  { s with fault := none, pending := Request.ofEncoded s.slot (tableWord nbits w) :: s.pending }

end Sys2Proof.Machine
end

