-- ==== Sys2Proof/Machine/Platform.lean ====
section
/-! DEFINITION. What the host does around the device: it issues requests (R49), constructs and destroys
the device (R133, R135), and may hold one device for each slot, with one order of requests to all of
them (R122, R129). -/

namespace Sys2Proof.Machine

/-- The host issues a request: it is performed after every request issued before it (R49). One whose
fields are wider than the ports cannot be issued (R9, D2, D14). -/
def State.issue (s : State) (q : Request) : Option State :=
  if q.fits s.addrW s.tickW then some { s with pending := s.pending ++ [q] } else none

/-- A place for one device: before construction and after destruction there is none (R116, R135). -/
inductive Place where
  | empty
  | device (s : State)
deriving DecidableEq, Repr

/-- Construction at an empty place; a refused construction leaves it empty (R116, R133). At a place that
holds a device there is nothing to construct (R132). -/
def Place.construct (p : Place) (a : ConstructArgs) : Place :=
  match p, Sys2Proof.Machine.construct a with
  | .empty, .next s => .device s
  | p, _ => p

/-- Destruction releases the device with both its buffers (R135). -/
def Place.destroy (_p : Place) : Place := .empty

/-- A request issued at a place; where there is no device none can be issued (R135). -/
def Place.issue (p : Place) (q : Request) : Option Place :=
  match p with
  | .empty => none
  | .device s => (s.issue q).map .device

/-- The device with `q` as the request it performs next. -/
def State.ask (s : State) (q : Request) : State := { s with pending := q :: s.pending }

/-- A request with the device it is issued to, by its place in the platform's list. -/
structure Order where
  device  : Nat
  request : Request
deriving DecidableEq, Repr

/-- An order performed, with the messages signalled during its step. -/
structure Served where
  order : Order
  msgs  : List Msg
deriving DecidableEq, Repr

/-- The devices that stand side by side on one bus (R129), the host's requests to all of them in the one
order it issues them (R49, R122), and those performed, oldest first. -/
structure Platform where
  devices : List State
  orders  : List Order
  served  : List Served
deriving DecidableEq, Repr

/-- The host's premise on the devices: no two share a slot (R44, R129, D27). -/
abbrev Platform.slotsUnique (p : Platform) : Prop :=
  p.devices.Pairwise fun s t => s.slot ≠ t.slot

/-- The messages that the interrupt consumer has been handed, by every device, in order (R96, R122). -/
def Platform.messages (p : Platform) : List Msg := p.served.flatMap (·.msgs)

/-- The host starts one more device by construction (R129, R133). -/
def Platform.start (p : Platform) (a : ConstructArgs) : Host.Outcome Platform Fault Refusal :=
  match Sys2Proof.Machine.construct a with
  | .next s => .next { p with devices := p.devices ++ [s] }
  | .fault f => .fault f
  | .refused r => .refused r

/-- The host issues a request to the device in place `k`: it is performed after every request issued
before it to any device (R122). Where there is no device none can be issued (R135), nor one whose fields
are wider than the device's ports (R9). -/
def Platform.issue (p : Platform) (k : Nat) (q : Request) : Option Platform :=
  match p.devices[k]? with
  | none => none
  | some s =>
    if q.fits s.addrW s.tickW then some { p with orders := p.orders ++ [⟨k, q⟩] } else none

/-- The order `o` performed with the messages `msgs`, which leaves the devices `ds` and the orders
`rest`. -/
def Platform.book (p : Platform) (o : Order) (rest : List Order) (ds : List State)
    (msgs : List Msg) : Platform :=
  { devices := ds, orders := rest, served := p.served ++ [⟨o, msgs⟩] }

/-- One step of the platform: the oldest order, by a step of its device. The devices share no state
(R129), so no other one moves. A device that has faulted performs no further request (R117), and the
platform stops at an order to it; an order to no device moves nothing. -/
def Platform.step (p : Platform) : Host.Outcome Platform Fault Refusal :=
  match p.orders with
  | [] => .next p
  | o :: rest =>
    match p.devices[o.device]? with
    | none => .next (p.book o rest p.devices [])
    | some s =>
      match Sys2Proof.Machine.step (s.ask o.request) with
      | .next t => .next (p.book o rest (p.devices.set o.device t) t.events)
      | .fault f => .fault f
      | .refused r => .refused r

/-- The platform after `n` steps. -/
def Platform.steps : Nat → Platform → Host.Outcome Platform Fault Refusal
  | 0, p => .next p
  | n + 1, p =>
    match p.step with
    | .next q => Platform.steps n q
    | o => o

end Sys2Proof.Machine
end

