-- ==== Sys2Proof/Safety.lean ====
section
/-! DEFINITION. The terms claims use: the invariants of the device, the end of a run (R150), the bus's
stop (R115), and runs of operations with the messages they signal. -/

namespace Sys2Proof.Machine

/-- Both buffers have the one form of their data. -/
abbrev State.canonical (s : State) : Prop := s.live.wf ∧ s.exposed.wf

/-- The mode is the decode of the stored Setup Register byte. After construction it holds only if
`SETUP_INIT[2:0] = 0` (R31). -/
abbrev State.modeAgrees (s : State) : Prop :=
  s.videoMode = setupMode s.setupReg ∧ s.isTextMode = setupText s.setupReg

/-- Every message ever signalled is the slot's own (R96, R121). -/
abbrev State.ownMessages (s : State) : Prop :=
  ∀ e ∈ s.history, ∀ m ∈ e.msgs, m = irqMsg s.slot

/-- The counter is a `u`CNT_W` value (R17). -/
abbrev State.counterFits (s : State) : Prop := s.cnt < 2 ^ s.cntW

/-- Every request in the host's list is of the widths of the ports (R9). -/
abbrev State.requestsFit (s : State) : Prop := ∀ q ∈ s.pending, q.fits s.addrW s.tickW = true

/-- The clock rate is one the tick port carries, that port is no wider than the counter, and the refresh
rate is at least 2 (R9: 32, 32 and 25): twice the threshold is then below `2^CNT_W` (R97). -/
abbrev State.rateFits (s : State) (clockHz : Nat) : Prop :=
  clockHz < 2 ^ s.tickW ∧ s.tickW ≤ s.cntW ∧ 2 ≤ s.refreshHz

/-- The end of a run (R150): the state after the last request in the host's list, with no fault and no
refusal. -/
abbrev State.endsNormally (s : State) : Prop :=
  s.pending = [] ∧ s.fault = none ∧ s.refused = false

/-- The machine after `n` steps. -/
def stepTimes : Nat → State → Host.Outcome State Fault Refusal
  | 0, s => .next s
  | n + 1, s =>
    match step s with
    | .next t => stepTimes n t
    | o => o

/-- The end of the run that performs every request in the host's list (R150); `none` where the run has
no normal end. -/
def State.endOfRun (s : State) : Option State :=
  match stepTimes s.pending.length s with
  | .next t => if t.endsNormally then some t else none
  | _ => none

/-- The last response is an AddressingError. -/
def State.lastIsError (s : State) : Bool :=
  match s.resp with
  | some (.addressingError _) => true
  | _ => false

/-- The bus stops after the last response: `BUS_ERR_FATAL` holds of an AddressingError (R115, D28). This
is the bus's choice; no step reads it. -/
def State.busStops (s : State) : Bool := Config.busErrFatal && s.lastIsError

/-- The operations performed one after the other, with every message signalled, in order (R49); `none`
if one of them does not complete. -/
def runOps : List Instr → State → Option (State × List Msg)
  | [], s => some (s, [])
  | i :: is, s =>
    match exec i s with
    | .next t => (runOps is t).map fun r => (r.1, t.events ++ r.2)
    | _ => none

/-- The operation is a TICK that makes a crossing in this state (R14). -/
def crosses (s : State) : Instr → Bool
  | .tick clockHz n => threshold s.refreshHz clockHz ≤ tickSum s.cnt n
  | _ => false

/-- The operations performed one after the other; `none` if one of them crosses or does not complete. -/
def runWithoutCrossing : List Instr → State → Option State
  | [], s => some s
  | i :: is, s =>
    if crosses s i then none
    else
      match exec i s with
      | .next t => runWithoutCrossing is t
      | _ => none

/-- The ticks of `ns` at one clock rate. -/
def ticks (clockHz : Nat) (ns : List Nat) : List Instr := ns.map (Instr.tick clockHz)

/-- The cycles of `ns` together. -/
def totalCycles (ns : List Nat) : Nat := ns.sum

/-- An operation that leaves the device as it is and only answers (R38, R80, R109, R111). -/
def isReader : Instr → Bool
  | .vramRd _ => true
  | .setupRd => true
  | .busRdNowin _ => true
  | .vramWr _ _ => false
  | .setupWr _ => false
  | .busWrNowin _ _ => true
  | .tick _ _ => false
  | .configWr _ _ _ => false
  | .exposedRd => true
  | .exposedRdb _ => true
  | .exposedRdbNowin _ => true
  | .modeRd => true
  | .textRd => true
  | .blinkRd => true
  | .userfontRd => true
  | .identRd => true
  | .regionsRd => true

end Sys2Proof.Machine
end

