-- ==== Sys2Proof/Certificates/Slice0/Obligations.lean ====
section
/-! DEFINITION. The statements for the provers, each with the rule of spec/ it formalises. -/

open Sys2Proof Sys2Proof.Machine

/-! ### Encoding -/

/-- R62, R63, R76: no operand is dropped by the words of an operation. -/
def Obligations.WellFormedOperationsDecodeFromTheirWords : Prop :=
  ∀ i : Instr, i.wellFormed = true → decode (encode i) = .ok i

/-- R63, R64: what the decoder reads meets its row's condition on `f`. -/
def Obligations.DecodedOperationsAreWellFormed : Prop :=
  ∀ (e : Encoded) (i : Instr), decode e = .ok i → i.wellFormed = true

/-- R63, R64, R65: a key selects exactly one row of the opcode table and the decoder reads that row's
operation, or it selects none and the decoder refuses. -/
def Obligations.DecoderFollowsTheOpcodeTable : Prop :=
  ∀ e : Encoded,
    (∀ i, decode e = .ok i → (selectedRows e.key).map (·.mnemonic) = [mnemonic i]) ∧
    (decode e = .error .reservedOpcode → selectedRows e.key = []) ∧
    (decode e = .error .reservedOpcode ↔ 0xC ≤ (keyOpc e.key).toNat)

/-- R62, R63, R65: the keys of test vectors V-E1 to V-E6, V-E9, V-E10 and V-E12 to V-E15, written out:
ten decode to the operations they stand for, and the two with a reserved code to none. The table's word
carries no side operand, and the model takes 0 for the data byte of the three writes (the model's choice,
assumption 14), where V-E9 and V-E10 have 7 and 1. -/
def Obligations.WrittenKeysDecodeToTheirRows : Prop :=
  decodeTableWord 40 0x000000000 = some (.vramRd 0x0) ∧
  decodeTableWord 40 0x0000043FF = some (.vramRd 0x43FF) ∧
  decodeTableWord 40 0x000004400 = some (.busRdNowin 0x4400) ∧
  decodeTableWord 40 0x0FFFFFFFF = some (.busRdNowin 0xFFFFFFFF) ∧
  decodeTableWord 40 0x00000CC00 = some .setupRd ∧
  decodeTableWord 40 0x10000CC01 = some (.busWrNowin 0xCC01 0) ∧
  decodeTableWord 40 0x10000CC00 = some (.setupWr 0) ∧
  decodeTableWord 40 0x100004000 = some (.vramWr 0x4000 0) ∧
  decodeTableWord 40 0x5000043FF = some (.exposedRdb 0x43FF) ∧
  decodeTableWord 40 0x500004400 = some (.exposedRdbNowin 0x4400) ∧
  decodeTableWord 40 0xC00000000 = none ∧
  decodeTableWord 40 0xF12345678 = none

/-- R60: `off` is `(addr - base(slot)) mod 2^32`, the tests on `off` are the window tests on the bus
address, and the offset loses nothing of the address. -/
def Obligations.BusOffsetTellsTheWindow : Prop :=
  ∀ (slot : Slot) (addr : Word),
    ((busOffset slot addr).toNat : Int) = (addr.toNat - (base slot).toNat) % 2 ^ 32 ∧
    (base slot).toNat + 0x10000 ≤ 2 ^ 32 ∧
    (inVram (busOffset slot addr) = (window slot .vram).contains addr) ∧
    ((busOffset slot addr == setupOffset) = (window slot .setup).contains addr) ∧
    (inVram (busOffset slot addr) = true →
      (window slot .vram).offset addr = (busOffset slot addr).toNat) ∧
    busAddress slot (busOffset slot addr) = addr

/-- R60, R62: a request put on the port for a key is decoded as that key. -/
def Obligations.PortRequestIsDecodedAsItsKey : Prop :=
  ∀ (slot : Slot) (e : Encoded), decode ((Request.ofEncoded slot e).encoded slot) = decode e

/-- R74, R75: what each written request decodes to; `TICK clockHz` stands for `TICK clockHz, 1`. -/
def Obligations.WrittenRequestsDecodeToTheirOperations : Prop :=
  ∀ slot : Slot,
    (∀ addr, decode ((Line.rd8 addr).request.encoded slot) =
      .ok (decodeBusRead (addr - base slot))) ∧
    (∀ addr v, decode ((Line.wr8 addr v).request.encoded slot) =
      .ok (decodeBusWrite (addr - base slot) v)) ∧
    (∀ f n, decode ((Line.tick f (some n)).request.encoded slot) = .ok (.tick f n)) ∧
    (∀ f, decode ((Line.tick f none).request.encoded slot) = .ok (.tick f 1)) ∧
    (∀ b u v, decode ((Line.cfg b u v).request.encoded slot) = .ok (.configWr b u v)) ∧
    (∀ k, decode ((Line.xrdb k).request.encoded slot) = .ok (decodeExposedByte k)) ∧
    decode (Line.xrd.request.encoded slot) = .ok .exposedRd ∧
    decode (Line.mode.request.encoded slot) = .ok .modeRd ∧
    decode (Line.text.request.encoded slot) = .ok .textRd ∧
    decode (Line.blinkAttr.request.encoded slot) = .ok .blinkRd ∧
    decode (Line.ufont.request.encoded slot) = .ok .userfontRd ∧
    decode (Line.ident.request.encoded slot) = .ok .identRd ∧
    decode (Line.regions.request.encoded slot) = .ok .regionsRd

/-- R8: the two tables as functions of the slot number, and R69: the bits of the message. -/
def Obligations.SlotTablesFollowTheSlotNumber : Prop :=
  ∀ slot : Slot,
    (base slot).toNat = 0xFF0A0000 + slotNumber slot * 0x10000 ∧
    (irqMsg slot).toNat = 0x5A + slotNumber slot * 0x1000 ∧
    slotOf (slotNumber slot) = some slot ∧
    irqMsg slot &&& 0xFF#32 = 0x5A#32 ∧
    ((irqMsg slot).extractLsb' 12 2).toNat = slotNumber slot ∧
    irqMsg slot &&& ~~~ 0x30FF#32 = 0#32

/-! ### The step -/

/-- R12, R30, R49: a step performs the decoded operation of the host's next request, on the device
without that request, and books the request with what it was answered. -/
def Obligations.StepPerformsTheDecodedOperation : Prop :=
  ∀ (s : State) (q : Request) (rest : List Request) (i : Instr),
    s.fault = none → s.pending = q :: rest →
    decode (q.encoded s.slot) = .ok i →
    (q.isBus = true → q.width = 1 ∧ q.region = none) →
    step s = match exec i { s with pending := rest } with
      | .next t => .next { t with history := t.history ++
          [{ request := q, resp := t.resp, msgs := t.events }] }
      | .fault f => .next { s with
          pending := rest, fault := some f, resp := none, events := [],
          history := s.history ++
            [{ request := q, resp := none, msgs := [], fault := some f }] }
      | .refused r => .next { s with
          pending := rest, refused := true, resp := none, events := [],
          history := s.history ++
            [{ request := q, resp := none, msgs := [], refusal := some r }] }

/-- The host's table word is the next request: the step performs the operation its key decodes to
(the model's loading convention, assumption 14). -/
def Obligations.TableWordIsPerformedNext : Prop :=
  ∀ (s : State) (nbits w : Nat) (i : Instr) (t : State),
    decodeTableWord nbits w = some i → exec i { s with fault := none } = .next t →
    ∃ q : Request, decode (q.encoded s.slot) = .ok i ∧
      step (s.withFetchWord nbits w) = .next { t with history := t.history ++
        [{ request := q, resp := t.resp, msgs := t.events }] }

/-- R117: after a fault no further request is performed. -/
def Obligations.FaultedDevicePerformsNothing : Prop :=
  ∀ (s : State) (f : Fault), s.fault = some f → step s = .fault f

/-- R33, R89: with no request the device stays as it is (the model's step there, assumption 8). -/
def Obligations.DeviceWithoutRequestStays : Prop :=
  ∀ s : State, s.fault = none → s.pending = [] → step s = .next s

/-- R65, R118, R119: a reserved code changes no device state, is given no response, and sets
`refused`, whatever the width of the request. -/
def Obligations.ReservedCodeIsRefused : Prop :=
  ∀ (s : State) (q : Request) (rest : List Request),
    s.fault = none → s.pending = q :: rest → 0xC ≤ q.opc.toNat →
    step s = .next { s with
      pending := rest, refused := true, resp := none, events := [],
      history := s.history ++
        [{ request := q, resp := none, msgs := [], refusal := some .reservedOpcode }] }

/-- R37, R118, R119: a bus access of a width other than one byte changes no device state and sets
`refused`, wherever its address is. -/
def Obligations.WideAccessIsRefused : Prop :=
  ∀ (s : State) (q : Request) (rest : List Request),
    s.fault = none → s.pending = q :: rest → q.opc = 0x0#4 ∨ q.opc = 0x1#4 → q.width ≠ 1 →
    step s = .next { s with
      pending := rest, refused := true, resp := none, events := [],
      history := s.history ++
        [{ request := q, resp := none, msgs := [], refusal := some .wideAccess }] }

/-- R117: a faulting TICK changes no device state, and the model sets `fault`. -/
def Obligations.FaultingTickChangesNoDeviceState : Prop :=
  ∀ (s : State) (q : Request) (rest : List Request) (clockHz n : Nat) (f : Fault),
    s.fault = none → s.pending = q :: rest →
    decode (q.encoded s.slot) = .ok (.tick clockHz n) → exec (.tick clockHz n) s = .fault f →
    step s = .next { s with
      pending := rest, fault := some f, resp := none, events := [],
      history := s.history ++ [{ request := q, resp := none, msgs := [], fault := some f }] }

/-- R117, R119: when a TICK faults, and that it completes otherwise, for every refresh rate and counter
width (R9: 25 and 32). -/
def Obligations.TickFaultsExactlyAsListed : Prop :=
  ∀ (s : State) (clockHz n : Nat), 0 < s.refreshHz →
    (clockHz < s.refreshHz → exec (.tick clockHz n) s = .fault .zeroThreshold) ∧
    (s.refreshHz ≤ clockHz → 2 ^ s.cntW - 1 < s.cnt + n →
      exec (.tick clockHz n) s = .fault .counterOverflow) ∧
    (s.refreshHz ≤ clockHz → s.cnt + n ≤ 2 ^ s.cntW - 1 →
      ∃ t, exec (.tick clockHz n) s = .next t)

/-- R49, R150: requests are performed in the order the host issued them: the step serves the oldest, and
the newest waits behind the others; and the end of a run is the state after the last request, each one
booked in its order and none of them stopped; a request can be issued exactly if it fits the ports. -/
def Obligations.RequestsAreServedInTheOrderIssued : Prop :=
  (∀ (s t : State) (q new : Request) (rest : List Request), s.pending = q :: rest →
    ∀ u, s.issue new = some u → step u = .next t →
    t.pending = rest ++ [new] ∧ ∃ e, t.history = s.history ++ [e] ∧ e.request = q) ∧
  (∀ s t : State, s.endOfRun = some t →
    t.pending = [] ∧ t.fault = none ∧ t.refused = false ∧
    ∃ es : List Entry, t.history = s.history ++ es ∧ es.map (·.request) = s.pending ∧
      ∀ e ∈ es, e.fault = none ∧ e.refusal = none ∧ e.resp ≠ none) ∧
  (∀ (s : State) (q : Request), (∃ u, s.issue q = some u) ↔ q.fits s.addrW s.tickW = true)

/-! ### Invariants -/

/-- Every step keeps both buffers in the one form of their data, the counter within its width, and the
requests within the widths of the ports. -/
def Obligations.StepKeepsDataInForm : Prop :=
  ∀ s t : State, step s = .next t →
    (s.canonical → t.canonical) ∧ (s.counterFits → t.counterFits) ∧
    (s.requestsFit → t.requestsFit)

/-- R21, R70, R87: once the mode is the decode of the stored byte, it stays so. -/
def Obligations.StepKeepsModeInAgreement : Prop :=
  ∀ s t : State, s.modeAgrees → step s = .next t → t.modeAgrees

/-- R96, R121: every message ever signalled is `irqMsg(slot)`. -/
def Obligations.StepSignalsOnlyTheSlotsMessage : Prop :=
  ∀ s t : State, s.ownMessages → step s = .next t → t.ownMessages

/-- The invariants hold at reset (R31; the setup byte chosen there is assumption 2). -/
def Obligations.ResetMeetsTheInvariants : Prop :=
  State.reset.canonical ∧ State.reset.counterFits ∧ State.reset.requestsFit ∧
    State.reset.modeAgrees ∧ State.reset.ownMessages ∧
    State.reset.endsNormally

/-- R30: every step appends at most one entry to the history, and never clears `refused`. -/
def Obligations.HistoryIsOnlyAppendedAndMarksStay : Prop :=
  ∀ s t : State, step s = .next t →
    (∃ es : List Entry, es.length ≤ 1 ∧ t.history = s.history ++ es) ∧
    (s.refused = true → t.refused = true)

/-! ### Whole-machine rules -/

/-- R18: no operation changes the slot; nor does any step, nor the parameters of construction (R9,
R133). -/
def Obligations.SlotAndParametersAreFixed : Prop :=
  ∀ s t : State, step s = .next t →
    t.slot = s.slot ∧ t.firePolicy = s.firePolicy ∧ t.refreshHz = s.refreshHz ∧ t.cntW = s.cntW ∧
    t.addrW = s.addrW ∧ t.tickW = s.tickW

/-- R32: the two axes. Only SETUP_WR moves the mode, to any mode from any mode; only TICK moves the
counter, by its cycles less the threshold for every crossing; only a TICK that reaches the threshold
copies or signals; and neither axis reads the other. -/
def Obligations.ModeAxisAndTimingAxisAreIndependent : Prop :=
  (∀ (i : Instr) (s t : State), exec i s = .next t →
    (t.videoMode ≠ s.videoMode ∨ t.isTextMode ≠ s.isTextMode) → ∃ v, i = .setupWr v) ∧
  (∀ (m : BitVec 2) (b : Bool), ∃ v : Byte, ∀ s : State, ∃ t,
    exec (.setupWr v) s = .next t ∧ t.videoMode = m ∧ t.isTextMode = b) ∧
  (∀ (i : Instr) (s t : State), exec i s = .next t → t.cnt ≠ s.cnt →
    ∃ f n, i = .tick f n) ∧
  (∀ (i : Instr) (s t : State), exec i s = .next t → t.exposed ≠ s.exposed ∨ t.events ≠ [] →
    ∃ f n, i = .tick f n ∧ threshold s.refreshHz f ≤ s.cnt + n) ∧
  (∀ (f n : Nat) (s t : State) (m : BitVec 2) (b : Bool), exec (.tick f n) s = .next t →
    exec (.tick f n) { s with videoMode := m, isTextMode := b } =
      .next { t with videoMode := m, isTextMode := b }) ∧
  (∀ (v : Byte) (s t : State) (c : Nat), exec (.setupWr v) s = .next t →
    exec (.setupWr v) { s with cnt := c } = .next { t with cnt := c }) ∧
  (∀ (f n : Nat) (s t : State), exec (.tick f n) s = .next t →
    ∃ k, t.cnt + k * threshold s.refreshHz f = s.cnt + n ∧
      (k = 0 → t.exposed = s.exposed ∧ t.events = []) ∧ (1 ≤ k → t.exposed = s.live))

/-- R24: only bus writes to the Video Memory window change the live buffer, one byte each. -/
def Obligations.OnlyVramWritesChangeTheLiveBuffer : Prop :=
  ∀ (i : Instr) (s t : State) (k : Nat), s.canonical → exec i s = .next t →
    t.live.read k ≠ s.live.read k →
    ∃ off data, i = .vramWr off data ∧ k = off.toNat ∧ t.live.read k = data

/-- R22: only CONFIG_WR changes the three configuration flags. -/
def Obligations.OnlyConfigWritesChangeTheConfigurationFlags : Prop :=
  ∀ (i : Instr) (s t : State), exec i s = .next t →
    (t.blinkAttribute ≠ s.blinkAttribute ∨ t.userFont ≠ s.userFont ∨ t.vsyncEn ≠ s.vsyncEn) →
    ∃ b u v, i = .configWr b u v

/-- R25, R51: after any step the exposed buffer is the earlier snapshot, or the live buffer whole. -/
def Obligations.ExposedBufferIsNeverPartlyCopied : Prop :=
  ∀ s t : State, step s = .next t → t.exposed = s.exposed ∨ t.exposed = s.live

/-- R38, R40, R111: the reading operations complete in every state, and neither change the device nor
signal. Their frame: everything but the response and the message list is as before. -/
def Obligations.ReadersCompleteAndChangeNothing : Prop :=
  ∀ (i : Instr) (s : State), isReader i = true →
    ∃ r, exec i s = .next { s with resp := some r, events := [] }

/-! ### The bus -/

/-- R80, R78, R60: a byte access on the bus, decoded by its offset, does what the dispatcher does with
its address. -/
def Obligations.BusAccessesMeetTheDispatcher : Prop :=
  ∀ (s : State) (q : Request), q.width = 1 → q.region = none →
    (q.opc = 0x0#4 → perform q s = dispatchRead q.addr s) ∧
    (q.opc = 0x1#4 → perform q s = dispatchWrite q.addr q.side.data s)

/-- R80: a bus access in neither window is an AddressingError that names no region, and changes
nothing. -/
def Obligations.AccessOutsideTheWindowsIsAnAddressingError : Prop :=
  ∀ (s : State) (off : Word) (data : Byte), 0x4400 ≤ off.toNat → off.toNat ≠ 0xCC00 →
    exec (.busRdNowin off) s = .next { s with
      resp := some (.addressingError ⟨1, base s.slot + off, .read, none⟩), events := [] } ∧
    exec (.busWrNowin off data) s = .next { s with
      resp := some (.addressingError ⟨1, base s.slot + off, .write, none⟩), events := [] } ∧
    (window s.slot .vram).contains (base s.slot + off) = false ∧
    (window s.slot .setup).contains (base s.slot + off) = false

/-- R79, R83: a direct region call outside the region's window is that region's AddressingError, and
inside it is what the dispatcher does. -/
def Obligations.DirectRegionCallsAnswerForTheirOwnWindow : Prop :=
  ∀ (s : State) (q : Request) (r : RegionId), q.width = 1 → q.region = some r →
    (q.opc = 0x0#4 → perform q s =
      if (window s.slot r).contains q.addr then dispatchRead q.addr s
      else .next { s with
        resp := some (.addressingError ⟨1, q.addr, .read, some r⟩), events := [] }) ∧
    (q.opc = 0x1#4 → perform q s =
      if (window s.slot r).contains q.addr then dispatchWrite q.addr q.side.data s
      else .next { s with
        resp := some (.addressingError ⟨1, q.addr, .write, some r⟩), events := [] })

/-- R84: VRAM_RD answers `Live[off]` for `off = (addr - base(slot)) mod 2^32`, and changes nothing; after
construction and any operations without a write at `off` that is `VRAM_INIT[off]`. -/
def Obligations.VramReadReturnsTheLiveByte : Prop :=
  (∀ (s : State) (addr : Word), (addr - base s.slot).toNat < 0x4400 →
    exec (.vramRd (addr - base s.slot)) s = .next { s with
      resp := some (.byte (s.live.read (addr - base s.slot).toNat)), events := [] }) ∧
  (∀ (a : ConstructArgs) (slot : Slot) (off : Word) (v : Byte), off.toNat < 0x4400 →
    a.vramInit[off.toNat]? = some v →
    ∀ (is : List Instr) (t : State) (ms : List Msg), (∀ w, Instr.vramWr off w ∉ is) →
      runOps is (constructed a slot) = some (t, ms) →
      exec (.vramRd off) t = .next { t with resp := some (.byte v), events := [] })

/-- R85: SETUP_RD answers the stored byte, not the mode, and changes nothing; after construction and any
operations without SETUP_WR that is `SETUP_INIT`. -/
def Obligations.SetupReadReturnsTheStoredByte : Prop :=
  (∀ s : State, exec .setupRd s =
    .next { s with resp := some (.byte s.setupReg), events := [] }) ∧
  (∀ (a : ConstructArgs) (slot : Slot) (is : List Instr) (t : State) (ms : List Msg),
    (∀ w, Instr.setupWr w ∉ is) → runOps is (constructed a slot) = some (t, ms) →
    exec .setupRd t = .next { t with resp := some (.byte a.setupInit), events := [] })

/-- R86: VRAM_WR stores the byte at its offset; a byte that stands there already leaves the buffer as it
is. The frame: every other byte of the live buffer, the exposed buffer and every other field are as
before. -/
def Obligations.VramWriteStoresOneLiveByte : Prop :=
  ∀ (s : State) (off : Word) (data : Byte), off.toNat < 0x4400 →
    ∃ t, exec (.vramWr off data) s = .next t ∧
      t = { s with live := t.live, resp := some .ok, events := [] } ∧
      (s.canonical → t.live.read off.toNat = data) ∧
      (s.canonical → s.live.read off.toNat = data → t.live = s.live) ∧
      ∀ k, k ≠ (window s.slot .vram).offset (busAddress s.slot off) →
        t.live.read k = s.live.read k

/-- R87, R70, R72: SETUP_WR stores the whole byte and sets the mode in the same step, and again leaves
that state; the accessors see the mode at once; and no other operation changes the mode. The frame:
every other field is as before. -/
def Obligations.SetupWriteStoresTheByteAndSetsTheMode : Prop :=
  (∀ (s : State) (data : Byte), ∃ t,
    t = { s with
      setupReg := data
      videoMode := (data &&& 0b11#8).setWidth 2
      isTextMode := (data &&& 0b100#8) == 0#8
      resp := some .ok
      events := [] } ∧
    exec (.setupWr data) s = .next t ∧ exec (.setupWr data) t = .next t ∧
    exec .modeRd t = .next { t with resp := some (.mode ((data &&& 0b11#8).setWidth 2)) } ∧
    exec .textRd t = .next { t with resp := some (.flag ((data &&& 0b100#8) == 0#8)) }) ∧
  (∀ (i : Instr) (s t : State), exec i s = .next t →
    (t.videoMode ≠ s.videoMode ∨ t.isTextMode ≠ s.isTextMode) → ∃ v, i = .setupWr v)

/-- R71: the decode table of bits 2:0; bits 7:3 do not matter. -/
def Obligations.SetupByteDecodesAsTabled : Prop :=
  ∀ v : Byte,
    (v.extractLsb' 0 3 = 0b000#3 → setupMode v = 0 ∧ setupText v = true) ∧
    (v.extractLsb' 0 3 = 0b001#3 → setupMode v = 1 ∧ setupText v = true) ∧
    (v.extractLsb' 0 3 = 0b010#3 → setupMode v = 2 ∧ setupText v = true) ∧
    (v.extractLsb' 0 3 = 0b011#3 → setupMode v = 3 ∧ setupText v = true) ∧
    (v.extractLsb' 0 3 = 0b100#3 → setupMode v = 0 ∧ setupText v = false) ∧
    (v.extractLsb' 0 3 = 0b101#3 → setupMode v = 1 ∧ setupText v = false) ∧
    (v.extractLsb' 0 3 = 0b110#3 → setupMode v = 2 ∧ setupText v = false) ∧
    (v.extractLsb' 0 3 = 0b111#3 → setupMode v = 3 ∧ setupText v = false)

/-- R88: the three properties of the bus family, on requests as the bus makes them: register decode,
buffer fidelity with any operations in between that do not write at that offset, and bounds rejection at
`begin - 1` and `begin + size` of either region, through the dispatcher and by a direct call. -/
def Obligations.BusFamilyPropertiesOfTheSource : Prop :=
  (∀ (s : State) (v : Byte), ∃ t,
    perform { opc := 0x1, addr := base s.slot + 0xCC00#32, side := { data := v } } s = .next t ∧
    t.videoMode.toNat = v.toNat % 4 ∧ t.isTextMode = !v.getLsbD 2) ∧
  (∀ (s : State) (k : Nat) (v : Byte), s.canonical → k < 0x4400 → ∃ t,
    perform { opc := 0x1, addr := base s.slot + BitVec.ofNat 32 k, side := { data := v } } s =
      .next t ∧
    ∀ (is : List Instr) (u : State) (ms : List Msg),
      (∀ w, Instr.vramWr (BitVec.ofNat 32 k) w ∉ is) → runOps is t = some (u, ms) →
      perform { opc := 0x0, addr := base s.slot + BitVec.ofNat 32 k } u =
        .next { u with resp := some (.byte v), events := [] }) ∧
  (∀ (s : State) (v : Byte) (r : RegionId) (via : Option RegionId) (addr : Word),
    (addr = (window s.slot r).begin - 1 ∨
      addr = (window s.slot r).begin + BitVec.ofNat 32 (window s.slot r).size) →
    via = none ∨ via = some r →
    perform { opc := 0x0, addr := addr, region := via } s = .next { s with
      resp := some (.addressingError ⟨1, addr, .read, via⟩), events := [] } ∧
    perform { opc := 0x1, addr := addr, region := via, side := { data := v } } s = .next { s with
      resp := some (.addressingError ⟨1, addr, .write, via⟩), events := [] })

/-- R40: writing the same byte again to the same address leaves the state of the first write. -/
def Obligations.WritingTheSameByteAgainChangesNothing : Prop :=
  ∀ (s t : State) (i : Instr), s.canonical →
    (∃ off data, i = .vramWr off data) ∨ (∃ data, i = .setupWr data) →
    exec i s = .next t → exec i t = .next t

/-- R50: a bus read answers the latest byte written to its address, whatever operations that write
elsewhere come between. -/
def Obligations.ReadReturnsTheLatestWrite : Prop :=
  (∀ (s t : State) (off : Word) (v : Byte) (is : List Instr) (ms : List Msg),
    s.canonical → off.toNat < 0x4400 → (∀ w, Instr.vramWr off w ∉ is) →
    runOps (.vramWr off v :: is ++ [.vramRd off]) s = some (t, ms) →
    t.resp = some (.byte v)) ∧
  (∀ (s t : State) (v : Byte) (is : List Instr) (ms : List Msg),
    (∀ w, Instr.setupWr w ∉ is) →
    runOps (.setupWr v :: is ++ [.setupRd]) s = some (t, ms) → t.resp = some (.byte v))

/-- R48: the windows of different slots do not overlap. -/
def Obligations.WindowsOfDifferentSlotsAreDisjoint : Prop :=
  ∀ (s₁ s₂ : Slot) (r₁ r₂ : RegionId) (addr : Word), (s₁, r₁) ≠ (s₂, r₂) →
    (window s₁ r₁).contains addr = true → (window s₂ r₂).contains addr = false

/-! ### The tick -/

/-- R90: the threshold is `clockHz div REFRESH_HZ` of this TICK; it is 0 exactly when `clockHz` is below
the rate. The rate is 25 unless construction names another (R9; floor and 25 are decisions D9, D10 of the
spec). -/
def Obligations.ThresholdIsTheClockRateOverTheRefreshRate : Prop :=
  State.reset.refreshHz = 25 ∧
  ∀ (hz clockHz : Nat), 0 < hz →
    threshold hz clockHz * hz ≤ clockHz ∧
    clockHz < (threshold hz clockHz + 1) * hz ∧
    (threshold hz clockHz = 0 ↔ clockHz < hz)

/-- R91, R92: a TICK under SingleFire makes at most one crossing. The frame: every field not named is
as before. -/
def Obligations.TickUnderSingleFire : Prop :=
  ∀ (s : State) (clockHz n : Nat), s.firePolicy = .singleFire → 0 < s.refreshHz →
    s.refreshHz ≤ clockHz →
    s.cnt + n ≤ 2 ^ s.cntW - 1 →
    exec (.tick clockHz n) s = .next
      (if threshold s.refreshHz clockHz ≤ s.cnt + n then
        { s with
          cnt := s.cnt + n - threshold s.refreshHz clockHz
          exposed := s.live
          resp := some .ok
          events := if s.vsyncEn then [irqMsg s.slot] else [] }
      else
        { s with
          cnt := s.cnt + n
          resp := some .ok
          events := [] })

/-- R91, R93: a TICK under PerCrossing makes every crossing and one copy. The frame: every field not
named is as before. -/
def Obligations.TickUnderPerCrossing : Prop :=
  ∀ (s : State) (clockHz n : Nat), s.firePolicy = .perCrossing → 0 < s.refreshHz →
    s.refreshHz ≤ clockHz →
    s.cnt + n ≤ 2 ^ s.cntW - 1 →
    exec (.tick clockHz n) s = .next { s with
      cnt := (s.cnt + n) % threshold s.refreshHz clockHz
      exposed := if threshold s.refreshHz clockHz ≤ s.cnt + n then s.live else s.exposed
      resp := some .ok
      events := if s.vsyncEn then
        List.replicate ((s.cnt + n) / threshold s.refreshHz clockHz) (irqMsg s.slot) else [] }

/-- R94: a TICK with a crossing copies every byte of the live buffer, whether or not `vsyncEn` is true;
one without a crossing leaves the exposed buffer, and nothing else writes it. -/
def Obligations.CrossingTickCopiesTheWholeLiveBuffer : Prop :=
  (∀ (s t : State) (clockHz n : Nat), exec (.tick clockHz n) s = .next t →
    (threshold s.refreshHz clockHz ≤ s.cnt + n →
      ∀ i, i < 0x4400 → t.exposed.read i = s.live.read i) ∧
    (s.cnt + n < threshold s.refreshHz clockHz → t.exposed = s.exposed)) ∧
  (∀ (i : Instr) (s t : State), exec i s = .next t → t.exposed ≠ s.exposed →
    ∃ f n, i = .tick f n)

/-- R95: with `vsyncEn` false a TICK still subtracts and copies as with it true, and signals nothing;
with it true it signals exactly when it crosses. -/
def Obligations.VsyncEnableGatesOnlyTheMessages : Prop :=
  ∀ (s t : State) (clockHz n : Nat), s.vsyncEn = true → exec (.tick clockHz n) s = .next t →
    exec (.tick clockHz n) { s with vsyncEn := false } =
      .next { t with vsyncEn := false, events := [] } ∧
    (t.events = [] ↔ s.cnt + n < threshold s.refreshHz clockHz)

/-- R97: under the usage premise `cnt < T` and `n ≤ T` no TICK overflows, at any clock rate that
fits the ports (R9: every u32 at 25 Hz); it completes, and leaves `cnt < T` again under either policy. -/
def Obligations.UsagePremiseRulesOutOverflow : Prop :=
  ∀ (s : State) (clockHz n : Nat), s.rateFits clockHz →
    s.cnt < threshold s.refreshHz clockHz → n ≤ threshold s.refreshHz clockHz →
    ∃ t, exec (.tick clockHz n) s = .next t ∧ t.cnt < threshold s.refreshHz clockHz

/-- R98: a SingleFire TICK with `cnt + n ≥ 2T` leaves a residue that crosses again with `n = 0`. -/
def Obligations.ResidueCrossesAgainWithNoCycles : Prop :=
  ∀ (s t : State) (clockHz n : Nat), s.firePolicy = .singleFire →
    2 * threshold s.refreshHz clockHz ≤ s.cnt + n → exec (.tick clockHz n) s = .next t →
    threshold s.refreshHz clockHz ≤ t.cnt ∧
    ∃ u, exec (.tick clockHz 0) t = .next u ∧ u.exposed = t.live ∧
      u.cnt = t.cnt - threshold s.refreshHz clockHz

/-- R100: under PerCrossing any sequence of ticks at one clock rate ends as one TICK of their total
does: the counter, the exposed buffer and all the messages. (Of at least one tick: none at all does not
perform the crossings that a counter at or above `T` still owes, R98.) -/
def Obligations.TicksAddUpUnderPerCrossing : Prop :=
  ∀ (s : State) (clockHz total : Nat) (ns : List Nat), s.firePolicy = .perCrossing →
    0 < s.refreshHz → s.refreshHz ≤ clockHz → ns ≠ [] → totalCycles ns = total →
    s.cnt + total ≤ 2 ^ s.cntW - 1 →
    ∃ t u ms, runOps (ticks clockHz ns) s = some (t, ms) ∧ exec (.tick clockHz total) s = .next u ∧
      t.cnt = u.cnt ∧ t.exposed = u.exposed ∧ ms = u.events

/-- R100: under SingleFire ticks of at most `T` cycles from `cnt < T` make the crossings of their total:
the counter ends at the remainder, and one message is signalled for every period. -/
def Obligations.ShortTicksAddUpUnderSingleFire : Prop :=
  ∀ (s : State) (clockHz : Nat) (ns : List Nat), s.firePolicy = .singleFire →
    s.rateFits clockHz → s.cnt < threshold s.refreshHz clockHz →
    (∀ n ∈ ns, n ≤ threshold s.refreshHz clockHz) →
    ∃ t, runOps (ticks clockHz ns) s = some (t,
        if s.vsyncEn then
          List.replicate ((s.cnt + totalCycles ns) / threshold s.refreshHz clockHz) (irqMsg s.slot)
        else []) ∧
      t.cnt = (s.cnt + totalCycles ns) % threshold s.refreshHz clockHz

/-- R100, R140: without that premise the law fails under SingleFire: one TICK of `2T` signals once, two
of `T` signal twice. -/
def Obligations.LongTickBreaksAdditivityUnderSingleFire : Prop :=
  ∀ (s : State) (clockHz n nn : Nat), s.firePolicy = .singleFire → s.vsyncEn = true → s.cnt = 0 →
    s.rateFits clockHz → s.refreshHz ≤ clockHz →
    n = threshold s.refreshHz clockHz → nn = 2 * threshold s.refreshHz clockHz →
    ∃ t u, runOps (ticks clockHz [nn]) s = some (t, [irqMsg s.slot]) ∧
      runOps (ticks clockHz [n, n]) s = some (u, [irqMsg s.slot, irqMsg s.slot])

/-- R57, R138: with ticks of at most `T` cycles from `cnt = c0 < T`, a written byte stays out of the
exposed buffer while the cycles since the write are below `T - c0`, and is in it after the first TICK
that brings them to `T - c0`. -/
def Obligations.WrittenByteIsExposedAtTheFirstCrossing : Prop :=
  ∀ (s : State) (off : Word) (v : Byte) (clockHz last : Nat) (ns : List Nat),
    s.canonical → off.toNat < 0x4400 → s.rateFits clockHz →
    s.cnt < threshold s.refreshHz clockHz →
    (∀ n ∈ last :: ns, n ≤ threshold s.refreshHz clockHz) →
    totalCycles ns < threshold s.refreshHz clockHz - s.cnt →
    threshold s.refreshHz clockHz - s.cnt ≤ totalCycles ns + last →
    ∃ t u ms₁ ms₂,
      runOps (.vramWr off v :: ticks clockHz ns) s = some (t, ms₁) ∧ t.exposed = s.exposed ∧
      runOps (.vramWr off v :: ticks clockHz ns ++ [.tick clockHz last]) s = some (u, ms₂) ∧
      u.exposed.read off.toNat = v

/-! ### The host ports -/

/-- R101: CONFIG_WR sets exactly the three flags. The frame: every other field is as before. -/
def Obligations.ConfigWriteSetsTheThreeFlags : Prop :=
  ∀ (s : State) (blink userFont vsyncEn : Bool),
    exec (.configWr blink userFont vsyncEn) s = .next { s with
      blinkAttribute := blink
      userFont := userFont
      vsyncEn := vsyncEn
      resp := some .ok
      events := [] }

/-- R102 to R105: the mode accessors answer the current values and change nothing; after construction
TEXT_RD answers true, whatever `SETUP_INIT` is. -/
def Obligations.ModeAccessorsReturnTheCurrentMode : Prop :=
  (∀ s : State,
    exec .modeRd s = .next { s with resp := some (.mode s.videoMode), events := [] } ∧
    exec .textRd s = .next { s with resp := some (.flag s.isTextMode), events := [] } ∧
    exec .blinkRd s = .next { s with resp := some (.flag s.blinkAttribute), events := [] } ∧
    exec .userfontRd s = .next { s with resp := some (.flag s.userFont), events := [] }) ∧
  (∀ (a : ConstructArgs) (slot : Slot), exec .textRd (constructed a slot) =
    .next { constructed a slot with resp := some (.flag true), events := [] })

/-- R106, R2, R68: IDENT_RD answers the identity tuple in every state and changes nothing. -/
def Obligations.IdentityReadReturnsTheTuple : Prop :=
  ∀ s : State, exec .identRd s = .next { s with
    resp := some (.ident ⟨0x0E#8, 0x0000#16, 0x0001#16, 0x0000#16⟩), events := [] }

/-- R107: EXPOSED_RD answers the 0x4400 bytes of the exposed buffer, index 0 first, and changes
nothing; after construction and any operations without a crossing they are all zero. -/
def Obligations.ExposedReadReturnsTheWholeSnapshot : Prop :=
  (∀ s : State, ∃ m : Memory,
    exec .exposedRd s = .next { s with resp := some (.buffer m), events := [] } ∧
    m.bytes.length = 0x4400 ∧ ∀ k, k < 0x4400 → m.bytes[k]? = some (s.exposed.read k)) ∧
  (∀ (a : ConstructArgs) (slot : Slot) (is : List Instr) (t : State),
    runWithoutCrossing is (constructed a slot) = some t →
    ∃ m : Memory, exec .exposedRd t = .next { t with resp := some (.buffer m), events := [] } ∧
      m.bytes = List.replicate 0x4400 0)

/-- R108, R109: a byte-wise exposed read answers `Exposed[k]`, and an index from 0x4400 on is an
AddressingError; neither changes anything. -/
def Obligations.ExposedByteReadAnswersItsByteOrAnError : Prop :=
  ∀ (s : State) (k : Word),
    (k.toNat < 0x4400 → exec (.exposedRdb k) s = .next { s with
      resp := some (.byte (s.exposed.read k.toNat)), events := [] }) ∧
    (0x4400 ≤ k.toNat → exec (.exposedRdbNowin k) s = .next { s with
      resp := some (.addressingError ⟨1, k, .exposedRead, none⟩), events := [] })

/-- R110, R78: REGIONS_RD answers the two windows of the slot in order and changes nothing. -/
def Obligations.RegionListReadReturnsTheTwoWindows : Prop :=
  ∀ s : State, exec .regionsRd s = .next { s with
    resp := some (.regions [⟨base s.slot, 0x4400⟩, ⟨base s.slot + 0xCC00#32, 1⟩]), events := [] }

/-! ### Construction -/

/-- R133, R31: the state after construction, for every argument and every legal value of
the open parameters. -/
def Obligations.ConstructionSetsEveryField : Prop :=
  ∀ (a : ConstructArgs) (slot : Slot), slotOf a.slot = some slot → a.allocated = true →
    a.legal →
    ∃ t, construct a = .next t ∧ t.canonical ∧ t.counterFits ∧ t.slot = slot ∧ t.cnt = a.cntReset ∧
      t.setupReg = a.setupInit ∧ t.videoMode = 0 ∧ t.isTextMode = true ∧
      t.blinkAttribute = a.cfgBlink ∧ t.userFont = a.cfgUserFont ∧ t.vsyncEn = a.cfgVsyncEn ∧
      t.live.bytes = a.vramInit ∧ (∀ k, k < 0x4400 → t.exposed.read k = 0) ∧
      t.fault = none ∧ t.refused = false ∧ t.history = [] ∧ t.events = [] ∧
      t.firePolicy = a.firePolicy ∧ t.refreshHz = a.refreshHz ∧ t.cntW = a.cntW ∧
      t.addrW = a.addrW ∧ t.tickW = a.tickW

/-- R133, R116: a slot outside {0, 1, 2, 3} is refused, and a failed allocation makes no device. -/
def Obligations.ConstructionRefusesAnInvalidSlot : Prop :=
  ∀ a : ConstructArgs,
    (3 < a.slot → construct a = .refused .invalidSlot) ∧
    (a.slot ≤ 3 → a.allocated = false → construct a = .refused .resourceExhaustion)

/-- R44, R48, R122, R129: with no two devices at one slot, a step of the platform leaves the slots unique
and every device but the one of the oldest order as it is, and no bus address is in a window of two of
them; the orders are performed one by one in the host's order, whichever devices they go to, and that is
the order of the messages, each one its device's own; and two TICKs to two devices hand over the messages
of the first, then those of the second. -/
def Obligations.DevicesDoNotInteractAndMessagesFollowTheHostsOrder : Prop :=
  (∀ p q : Platform, p.slotsUnique → p.step = .next q →
    q.slotsUnique ∧ q.devices.length = p.devices.length ∧
    (∀ j, (∀ o, p.orders.head? = some o → j ≠ o.device) → q.devices[j]? = p.devices[j]?) ∧
    ∀ (j₁ j₂ : Nat) (s₁ s₂ : State) (r₁ r₂ : RegionId) (addr : Word), j₁ ≠ j₂ →
      q.devices[j₁]? = some s₁ → q.devices[j₂]? = some s₂ →
      (window s₁.slot r₁).contains addr = true → (window s₂.slot r₂).contains addr = false) ∧
  (∀ (p q : Platform) (n : Nat), p.steps n = .next q →
    q.orders = p.orders.drop n ∧
    ∃ es : List Served, q.served = p.served ++ es ∧ es.map (·.order) = p.orders.take n ∧
      q.messages = p.messages ++ es.flatMap (·.msgs) ∧
      ∀ e ∈ es, ∀ m ∈ e.msgs, ∃ s, p.devices[e.order.device]? = some s ∧ m = irqMsg s.slot) ∧
  (∀ (p : Platform) (j k : Nat) (s t s' t' : State) (f g n m : Nat) (rest : List Order),
    j ≠ k → p.devices[j]? = some s → p.devices[k]? = some t → s.fault = none → t.fault = none →
    p.orders = ⟨j, (Line.tick f (some n)).request⟩ :: ⟨k, (Line.tick g (some m)).request⟩ :: rest →
    exec (.tick f n) s = .next s' → exec (.tick g m) t = .next t' →
    ∃ q, p.steps 2 = .next q ∧ q.messages = p.messages ++ s'.events ++ t'.events)
end

