-- ==== Sys2Proof/Laws/Decode.lean ====
section
/-! SUPPORT. The fields of a key, and what the decoder can answer. -/

namespace Sys2Proof

open Machine

theorem getLsbD_mkKey (opc : Opc) (f : Word) (i : Nat) :
    (mkKey opc f).getLsbD i = if i < 32 then f.getLsbD i else opc.getLsbD (i - 32) := by
  rw [mkKey, BitVec.getLsbD_cast, BitVec.getLsbD_append]

@[simp] theorem keyOpc_mkKey (opc : Opc) (f : Word) : keyOpc (mkKey opc f) = opc := by
  apply BitVec.eq_of_getLsbD_eq
  intro i hi
  rw [keyOpc, BitVec.getLsbD_extractLsb', getLsbD_mkKey]
  simp [hi]

@[simp] theorem keyF_mkKey (opc : Opc) (f : Word) : keyF (mkKey opc f) = f := by
  apply BitVec.eq_of_getLsbD_eq
  intro i hi
  rw [keyF, BitVec.getLsbD_extractLsb', getLsbD_mkKey]
  simp [hi]

/-- A key is its two fields. -/
theorem mkKey_keyOpc_keyF (key : Key) : mkKey (keyOpc key) (keyF key) = key := by
  apply BitVec.eq_of_getLsbD_eq
  intro i hi
  rw [getLsbD_mkKey, keyOpc, keyF, BitVec.getLsbD_extractLsb', BitVec.getLsbD_extractLsb']
  by_cases h : i < 32
  · simp [h]
  · simp [h, show i - 32 < 4 by omega, show 32 + (i - 32) = i by omega]

/-- The setup offset is in neither the Video Memory window nor outside both windows. -/
theorem setupOffset_not_inVram : inVram setupOffset = false := by decide

/-- An offset in the Video Memory window is not the setup offset. -/
theorem ne_setupOffset_of_inVram {f : Word} (h : inVram f = true) : f ≠ setupOffset := by
  rintro rfl
  exact absurd h (by decide)

/-- The three cases of a bus read's offset. -/
theorem decodeBusRead_cases (f : Word) :
    (inVram f = true ∧ decodeBusRead f = .vramRd f) ∨
    (f = setupOffset ∧ decodeBusRead f = .setupRd) ∨
    (noWindow f = true ∧ decodeBusRead f = .busRdNowin f) := by
  unfold decodeBusRead noWindow
  by_cases h : inVram f = true
  · exact .inl ⟨h, if_pos h⟩
  · by_cases hf : f = setupOffset
    · exact .inr (.inl ⟨hf, by rw [if_neg h, if_pos hf]⟩)
    · exact .inr (.inr ⟨by simp [h, hf], by rw [if_neg h, if_neg hf]⟩)

/-- The three cases of a bus write's offset. -/
theorem decodeBusWrite_cases (f : Word) (v : Byte) :
    (inVram f = true ∧ decodeBusWrite f v = .vramWr f v) ∨
    (f = setupOffset ∧ decodeBusWrite f v = .setupWr v) ∨
    (noWindow f = true ∧ decodeBusWrite f v = .busWrNowin f v) := by
  unfold decodeBusWrite noWindow
  by_cases h : inVram f = true
  · exact .inl ⟨h, if_pos h⟩
  · by_cases hf : f = setupOffset
    · exact .inr (.inl ⟨hf, by rw [if_neg h, if_pos hf]⟩)
    · exact .inr (.inr ⟨by simp [h, hf], by rw [if_neg h, if_neg hf]⟩)

/-- The two cases of the index of a byte-wise exposed read. -/
theorem decodeExposedByte_cases (k : Word) :
    (inVram k = true ∧ decodeExposedByte k = .exposedRdb k) ∨
    (inVram k = false ∧ decodeExposedByte k = .exposedRdbNowin k) := by
  unfold decodeExposedByte
  by_cases h : inVram k = true
  · exact .inl ⟨h, if_pos h⟩
  · exact .inr ⟨by simpa using h, if_neg h⟩

/-- Decoding by the number of the operation code: one case for each code of R59, and the reserved
ones. -/
theorem decode_mkKey (opc : Opc) (f : Word) (d : Side) :
    decode ⟨mkKey opc f, d⟩ =
      match opc.toNat with
      | 0x0 => .ok (decodeBusRead f)
      | 0x1 => .ok (decodeBusWrite f d.data)
      | 0x2 => .ok (.tick d.clockHz (d.n.getD 1))
      | 0x3 => .ok (.configWr d.blink d.userFont d.vsyncEn)
      | 0x4 => .ok .exposedRd
      | 0x5 => .ok (decodeExposedByte f)
      | 0x6 => .ok .modeRd
      | 0x7 => .ok .textRd
      | 0x8 => .ok .blinkRd
      | 0x9 => .ok .userfontRd
      | 0xA => .ok .identRd
      | 0xB => .ok .regionsRd
      | _ => .error .reservedOpcode := by
  generalize hk : mkKey opc f = k
  obtain rfl : keyOpc k = opc := hk ▸ keyOpc_mkKey opc f
  obtain rfl : keyF k = f := hk ▸ keyF_mkKey _ f
  rfl

end Sys2Proof
end

