-- ==== Sys2Proof/Laws/Memory.lean ====
section
/-! SUPPORT. The laws of a buffer: read after write, and its one form. -/

namespace Sys2Proof.Machine.Memory

@[simp] theorem read_nil (k : Nat) : Memory.read [] k = Memory.fill := rfl

theorem read_cons (a : Nat) (b : Byte) (m : Memory) (k : Nat) :
    Memory.read ((a, b) :: m) k = if a = k then b else m.read k := rfl

/-- Offsets below every listed one read as the fill byte. -/
theorem read_of_forall_gt {m : Memory} {k : Nat} (h : ∀ c ∈ m, k < c.1) :
    m.read k = Memory.fill := by
  induction m with
  | nil => rfl
  | cons c m ih =>
    obtain ⟨a, b⟩ := c
    have ha : k < a := h (a, b) (by simp)
    rw [read_cons, if_neg (by omega), ih fun c hc => h c (by simp [hc])]

theorem read_put_self {m : Memory} {k : Nat} {v : Byte} (h : ∀ c ∈ m, k < c.1) :
    (Memory.put k v m).read k = v := by
  unfold Memory.put
  split
  · rw [read_of_forall_gt h, ‹v = _›]
  · simp [read_cons]

theorem read_put_other {m : Memory} {k j : Nat} {v : Byte} (h : j ≠ k) :
    (Memory.put k v m).read j = m.read j := by
  unfold Memory.put
  split
  · rfl
  · rw [read_cons, if_neg (Ne.symm h)]

/-- What a well-formed buffer says of its first cell and of the rest. -/
theorem wf_cons {a : Nat} {b : Byte} {m : Memory} :
    Memory.wf ((a, b) :: m) ↔
      (∀ c ∈ m, a < c.1) ∧ a < vramSize ∧ b ≠ Memory.fill ∧ m.wf := by
  simp only [Memory.wf, List.pairwise_cons, List.forall_mem_cons]
  tauto

theorem wf_put {m : Memory} {k : Nat} {v : Byte} (hm : m.wf) (hk : k < vramSize)
    (h : ∀ c ∈ m, k < c.1) : (Memory.put k v m).wf := by
  unfold Memory.put
  split
  · exact hm
  · exact wf_cons.2 ⟨h, hk, ‹_›, hm⟩

theorem mem_put {m : Memory} {k : Nat} {v : Byte} {c : Host.Cell} (h : c ∈ Memory.put k v m) :
    c = (k, v) ∨ c ∈ m := by
  unfold Memory.put at h
  split at h
  · exact .inr h
  · exact List.mem_cons.1 h

/-- A cell written at `k` is at `k` or was there before. -/
theorem mem_write {m : Memory} {k : Nat} {v : Byte} {c : Host.Cell} (h : c ∈ m.write k v) :
    c.1 = k ∨ c ∈ m := by
  induction m with
  | nil =>
    unfold Memory.write at h
    exact (mem_put h).imp_left (congrArg Prod.fst)
  | cons d m ih =>
    obtain ⟨a, b⟩ := d
    unfold Memory.write at h
    split at h
    · exact (mem_put h).imp_left (congrArg Prod.fst)
    · split at h
      · exact (mem_put h).imp (congrArg Prod.fst) (List.mem_cons_of_mem _)
      · rcases List.mem_cons.1 h with rfl | h
        · exact .inr List.mem_cons_self
        · exact (ih h).imp_right (List.mem_cons_of_mem _)

/-- A write keeps the one form of a buffer. -/
theorem wf_write {m : Memory} {k : Nat} {v : Byte} (hm : m.wf) (hk : k < vramSize) :
    (m.write k v).wf := by
  induction m with
  | nil => exact wf_put hm hk (by simp)
  | cons d m ih =>
    obtain ⟨a, b⟩ := d
    obtain ⟨hlt, ha, hb, hm'⟩ := wf_cons.1 hm
    unfold Memory.write
    split
    · refine wf_put hm hk fun c hc => ?_
      rcases List.mem_cons.1 hc with rfl | hc
      · assumption
      · exact Nat.lt_trans ‹k < a› (hlt c hc)
    · split
      · exact wf_put hm' hk fun c hc => ‹k = a› ▸ hlt c hc
      · refine wf_cons.2 ⟨fun c hc => ?_, ha, hb, ih hm'⟩
        rcases mem_write hc with h | h
        · omega
        · exact hlt c h

/-- Read after write at the same offset, in a well-formed buffer. -/
theorem read_write_self_of_wf {m : Memory} {k : Nat} {v : Byte} (hm : m.wf) :
    (m.write k v).read k = v := by
  induction m with
  | nil => exact read_put_self (by simp)
  | cons d m ih =>
    obtain ⟨a, b⟩ := d
    obtain ⟨hlt, -, -, hm'⟩ := wf_cons.1 hm
    unfold Memory.write
    split
    · refine read_put_self fun c hc => ?_
      rcases List.mem_cons.1 hc with rfl | hc
      · assumption
      · exact Nat.lt_trans ‹k < a› (hlt c hc)
    · split
      · exact read_put_self fun c hc => ‹k = a› ▸ hlt c hc
      · rw [read_cons, if_neg (by omega), ih hm']

/-- A write leaves every other offset alone, in any buffer. -/
theorem read_write_other {m : Memory} {k j : Nat} {v : Byte} (h : j ≠ k) :
    (m.write k v).read j = m.read j := by
  induction m with
  | nil => exact read_put_other h
  | cons d m ih =>
    obtain ⟨a, b⟩ := d
    unfold Memory.write
    split
    · exact read_put_other h
    · split
      · rw [read_put_other h, read_cons, if_neg (by omega)]
      · rw [read_cons, read_cons, ih]

/-- Two well-formed buffers with the same bytes are equal. -/
theorem ext_of_wf {m m' : Memory} (hm : m.wf) (hm' : m'.wf) (h : ∀ k, m.read k = m'.read k) :
    m = m' := by
  induction m generalizing m' with
  | nil =>
    cases m' with
    | nil => rfl
    | cons d m' =>
      obtain ⟨a, b⟩ := d
      have := h a
      simp only [read_nil, read_cons, if_true] at this
      exact absurd this.symm (wf_cons.1 hm').2.2.1
  | cons d m ih =>
    obtain ⟨a, b⟩ := d
    obtain ⟨hlt, -, hb, hmw⟩ := wf_cons.1 hm
    cases m' with
    | nil =>
      have := h a
      simp only [read_nil, read_cons, if_true] at this
      exact absurd this hb
    | cons d' m' =>
      obtain ⟨a', b'⟩ := d'
      obtain ⟨hlt', -, hb', hmw'⟩ := wf_cons.1 hm'
      have hne : ∀ {x y : Nat} {n : Memory}, x < y → (∀ c ∈ n, y < c.1) → n.read x = Memory.fill :=
        fun hxy hn => read_of_forall_gt fun c hc => Nat.lt_trans hxy (hn c hc)
      have haa : a = a' := by
        rcases Nat.lt_trichotomy a a' with hl | he | hl
        · have := h a
          rw [read_cons, read_cons, if_pos rfl, if_neg (by omega), hne hl hlt'] at this
          exact absurd this hb
        · exact he
        · have := h a'
          rw [read_cons, read_cons, if_pos rfl, if_neg (by omega), hne hl hlt] at this
          exact absurd this.symm hb'
      subst haa
      have hbb : b = b' := by simpa [read_cons] using h a
      subst hbb
      refine congrArg _ (ih hmw hmw' fun k => ?_)
      by_cases hk : a = k
      · subst hk
        rw [read_of_forall_gt hlt, read_of_forall_gt hlt']
      · simpa [read_cons, hk] using h k

/-- Writing the same byte again changes nothing, in a well-formed buffer. -/
theorem write_write_of_wf {m : Memory} {k : Nat} {v : Byte} (hm : m.wf) (hk : k < vramSize) :
    (m.write k v).write k v = m.write k v := by
  refine ext_of_wf (wf_write (wf_write hm hk) hk) (wf_write hm hk) fun j => ?_
  by_cases h : j = k
  · subst h
    rw [read_write_self_of_wf (wf_write hm hk), read_write_self_of_wf hm]
  · rw [read_write_other h]

/-! ### A buffer from its bytes -/

theorem mem_ofBytesFrom_ge {bs : List Byte} {k : Nat} {c : Host.Cell}
    (h : c ∈ Memory.ofBytesFrom k bs) : k ≤ c.1 := by
  induction bs generalizing k with
  | nil => simp [Memory.ofBytesFrom] at h
  | cons b bs ih =>
    unfold Memory.ofBytesFrom Memory.put at h
    split at h
    · split at h
      · exact Nat.le_of_succ_le (ih h)
      · rcases List.mem_cons.1 h with rfl | h
        · exact Nat.le_refl _
        · exact Nat.le_of_succ_le (ih h)
    · simp at h

theorem wf_ofBytesFrom (bs : List Byte) (k : Nat) : (Memory.ofBytesFrom k bs).wf := by
  induction bs generalizing k with
  | nil => simp [Memory.ofBytesFrom, Memory.wf]
  | cons b bs ih =>
    unfold Memory.ofBytesFrom
    split
    · exact wf_put (ih _) ‹_› fun c hc => mem_ofBytesFrom_ge hc
    · simp [Memory.wf]

theorem read_ofBytesFrom {bs : List Byte} {k j : Nat} (h : k + j < vramSize) :
    (Memory.ofBytesFrom k bs).read (k + j) = bs.getD j Memory.fill := by
  induction bs generalizing k j with
  | nil => simp [Memory.ofBytesFrom]
  | cons b bs ih =>
    unfold Memory.ofBytesFrom
    rw [if_pos (by omega)]
    cases j with
    | zero => simpa using read_put_self fun c hc => mem_ofBytesFrom_ge hc
    | succ j =>
      rw [read_put_other (by omega), show k + (j + 1) = (k + 1) + j by omega, ih (by omega)]
      simp

/-- The bytes a buffer was made from, below `VRAM_SIZE`. -/
theorem read_ofBytes {bs : List Byte} {j : Nat} (h : j < vramSize) :
    (Memory.ofBytes bs).read j = bs.getD j Memory.fill := by
  simpa [Memory.ofBytes] using read_ofBytesFrom (k := 0) (bs := bs) (j := j) (by omega)

@[simp] theorem length_bytes (m : Memory) : m.bytes.length = vramSize := by
  simp [Memory.bytes]

end Sys2Proof.Machine.Memory
end

