-- ==== Sys2Proof/Laws/State.lean ====
section
/-! SUPPORT. What each update of the state leaves in each field: one lemma per field per update. -/

namespace Sys2Proof.Machine.State

/-! ### `State.modeUpdate` -/

@[simp] theorem modeUpdate_slot (s : State) (v : Byte) : (s.modeUpdate v).slot = s.slot := rfl
@[simp] theorem modeUpdate_cnt (s : State) (v : Byte) : (s.modeUpdate v).cnt = s.cnt := rfl
@[simp] theorem modeUpdate_setupReg (s : State) (v : Byte) :
    (s.modeUpdate v).setupReg = s.setupReg := rfl
@[simp] theorem modeUpdate_videoMode (s : State) (v : Byte) :
    (s.modeUpdate v).videoMode = setupMode v := rfl
@[simp] theorem modeUpdate_isTextMode (s : State) (v : Byte) :
    (s.modeUpdate v).isTextMode = setupText v := rfl
@[simp] theorem modeUpdate_blinkAttribute (s : State) (v : Byte) :
    (s.modeUpdate v).blinkAttribute = s.blinkAttribute := rfl
@[simp] theorem modeUpdate_userFont (s : State) (v : Byte) :
    (s.modeUpdate v).userFont = s.userFont := rfl
@[simp] theorem modeUpdate_vsyncEn (s : State) (v : Byte) :
    (s.modeUpdate v).vsyncEn = s.vsyncEn := rfl
@[simp] theorem modeUpdate_live (s : State) (v : Byte) : (s.modeUpdate v).live = s.live := rfl
@[simp] theorem modeUpdate_exposed (s : State) (v : Byte) :
    (s.modeUpdate v).exposed = s.exposed := rfl
@[simp] theorem modeUpdate_fault (s : State) (v : Byte) : (s.modeUpdate v).fault = s.fault := rfl
@[simp] theorem modeUpdate_refused (s : State) (v : Byte) :
    (s.modeUpdate v).refused = s.refused := rfl
@[simp] theorem modeUpdate_history (s : State) (v : Byte) :
    (s.modeUpdate v).history = s.history := rfl
@[simp] theorem modeUpdate_resp (s : State) (v : Byte) : (s.modeUpdate v).resp = s.resp := rfl
@[simp] theorem modeUpdate_events (s : State) (v : Byte) : (s.modeUpdate v).events = s.events := rfl
@[simp] theorem modeUpdate_pending (s : State) (v : Byte) :
    (s.modeUpdate v).pending = s.pending := rfl
@[simp] theorem modeUpdate_firePolicy (s : State) (v : Byte) :
    (s.modeUpdate v).firePolicy = s.firePolicy := rfl
@[simp] theorem modeUpdate_refreshHz (s : State) (v : Byte) :
    (s.modeUpdate v).refreshHz = s.refreshHz := rfl
@[simp] theorem modeUpdate_cntW (s : State) (v : Byte) : (s.modeUpdate v).cntW = s.cntW := rfl
@[simp] theorem modeUpdate_addrW (s : State) (v : Byte) : (s.modeUpdate v).addrW = s.addrW := rfl
@[simp] theorem modeUpdate_tickW (s : State) (v : Byte) : (s.modeUpdate v).tickW = s.tickW := rfl

/-! ### `State.setFlags` -/

@[simp] theorem setFlags_slot (s : State) (b u e : Bool) : (s.setFlags b u e).slot = s.slot := rfl
@[simp] theorem setFlags_cnt (s : State) (b u e : Bool) : (s.setFlags b u e).cnt = s.cnt := rfl
@[simp] theorem setFlags_setupReg (s : State) (b u e : Bool) :
    (s.setFlags b u e).setupReg = s.setupReg := rfl
@[simp] theorem setFlags_videoMode (s : State) (b u e : Bool) :
    (s.setFlags b u e).videoMode = s.videoMode := rfl
@[simp] theorem setFlags_isTextMode (s : State) (b u e : Bool) :
    (s.setFlags b u e).isTextMode = s.isTextMode := rfl
@[simp] theorem setFlags_blinkAttribute (s : State) (b u e : Bool) :
    (s.setFlags b u e).blinkAttribute = b := rfl
@[simp] theorem setFlags_userFont (s : State) (b u e : Bool) :
    (s.setFlags b u e).userFont = u := rfl
@[simp] theorem setFlags_vsyncEn (s : State) (b u e : Bool) : (s.setFlags b u e).vsyncEn = e := rfl
@[simp] theorem setFlags_live (s : State) (b u e : Bool) : (s.setFlags b u e).live = s.live := rfl
@[simp] theorem setFlags_exposed (s : State) (b u e : Bool) :
    (s.setFlags b u e).exposed = s.exposed := rfl
@[simp] theorem setFlags_fault (s : State) (b u e : Bool) :
    (s.setFlags b u e).fault = s.fault := rfl
@[simp] theorem setFlags_refused (s : State) (b u e : Bool) :
    (s.setFlags b u e).refused = s.refused := rfl
@[simp] theorem setFlags_history (s : State) (b u e : Bool) :
    (s.setFlags b u e).history = s.history := rfl
@[simp] theorem setFlags_resp (s : State) (b u e : Bool) : (s.setFlags b u e).resp = s.resp := rfl
@[simp] theorem setFlags_events (s : State) (b u e : Bool) :
    (s.setFlags b u e).events = s.events := rfl
@[simp] theorem setFlags_pending (s : State) (b u e : Bool) :
    (s.setFlags b u e).pending = s.pending := rfl
@[simp] theorem setFlags_firePolicy (s : State) (b u e : Bool) :
    (s.setFlags b u e).firePolicy = s.firePolicy := rfl
@[simp] theorem setFlags_refreshHz (s : State) (b u e : Bool) :
    (s.setFlags b u e).refreshHz = s.refreshHz := rfl
@[simp] theorem setFlags_cntW (s : State) (b u e : Bool) : (s.setFlags b u e).cntW = s.cntW := rfl
@[simp] theorem setFlags_addrW (s : State) (b u e : Bool) :
    (s.setFlags b u e).addrW = s.addrW := rfl
@[simp] theorem setFlags_tickW (s : State) (b u e : Bool) :
    (s.setFlags b u e).tickW = s.tickW := rfl

/-! ### `State.answer` -/

@[simp] theorem answer_slot (s : State) (r : Response) (ms : List Msg) :
    (s.answer r ms).slot = s.slot := rfl
@[simp] theorem answer_cnt (s : State) (r : Response) (ms : List Msg) :
    (s.answer r ms).cnt = s.cnt := rfl
@[simp] theorem answer_setupReg (s : State) (r : Response) (ms : List Msg) :
    (s.answer r ms).setupReg = s.setupReg := rfl
@[simp] theorem answer_videoMode (s : State) (r : Response) (ms : List Msg) :
    (s.answer r ms).videoMode = s.videoMode := rfl
@[simp] theorem answer_isTextMode (s : State) (r : Response) (ms : List Msg) :
    (s.answer r ms).isTextMode = s.isTextMode := rfl
@[simp] theorem answer_blinkAttribute (s : State) (r : Response) (ms : List Msg) :
    (s.answer r ms).blinkAttribute = s.blinkAttribute := rfl
@[simp] theorem answer_userFont (s : State) (r : Response) (ms : List Msg) :
    (s.answer r ms).userFont = s.userFont := rfl
@[simp] theorem answer_vsyncEn (s : State) (r : Response) (ms : List Msg) :
    (s.answer r ms).vsyncEn = s.vsyncEn := rfl
@[simp] theorem answer_live (s : State) (r : Response) (ms : List Msg) :
    (s.answer r ms).live = s.live := rfl
@[simp] theorem answer_exposed (s : State) (r : Response) (ms : List Msg) :
    (s.answer r ms).exposed = s.exposed := rfl
@[simp] theorem answer_fault (s : State) (r : Response) (ms : List Msg) :
    (s.answer r ms).fault = s.fault := rfl
@[simp] theorem answer_refused (s : State) (r : Response) (ms : List Msg) :
    (s.answer r ms).refused = s.refused := rfl
@[simp] theorem answer_history (s : State) (r : Response) (ms : List Msg) :
    (s.answer r ms).history = s.history := rfl
@[simp] theorem answer_resp (s : State) (r : Response) (ms : List Msg) :
    (s.answer r ms).resp = some r := rfl
@[simp] theorem answer_events (s : State) (r : Response) (ms : List Msg) :
    (s.answer r ms).events = ms := rfl
@[simp] theorem answer_pending (s : State) (r : Response) (ms : List Msg) :
    (s.answer r ms).pending = s.pending := rfl
@[simp] theorem answer_firePolicy (s : State) (r : Response) (ms : List Msg) :
    (s.answer r ms).firePolicy = s.firePolicy := rfl
@[simp] theorem answer_refreshHz (s : State) (r : Response) (ms : List Msg) :
    (s.answer r ms).refreshHz = s.refreshHz := rfl
@[simp] theorem answer_cntW (s : State) (r : Response) (ms : List Msg) :
    (s.answer r ms).cntW = s.cntW := rfl
@[simp] theorem answer_addrW (s : State) (r : Response) (ms : List Msg) :
    (s.answer r ms).addrW = s.addrW := rfl
@[simp] theorem answer_tickW (s : State) (r : Response) (ms : List Msg) :
    (s.answer r ms).tickW = s.tickW := rfl

/-! ### `State.storeLive` -/

@[simp] theorem storeLive_slot (s : State) (k : Nat) (v : Byte) :
    (s.storeLive k v).slot = s.slot := rfl
@[simp] theorem storeLive_cnt (s : State) (k : Nat) (v : Byte) :
    (s.storeLive k v).cnt = s.cnt := rfl
@[simp] theorem storeLive_setupReg (s : State) (k : Nat) (v : Byte) :
    (s.storeLive k v).setupReg = s.setupReg := rfl
@[simp] theorem storeLive_videoMode (s : State) (k : Nat) (v : Byte) :
    (s.storeLive k v).videoMode = s.videoMode := rfl
@[simp] theorem storeLive_isTextMode (s : State) (k : Nat) (v : Byte) :
    (s.storeLive k v).isTextMode = s.isTextMode := rfl
@[simp] theorem storeLive_blinkAttribute (s : State) (k : Nat) (v : Byte) :
    (s.storeLive k v).blinkAttribute = s.blinkAttribute := rfl
@[simp] theorem storeLive_userFont (s : State) (k : Nat) (v : Byte) :
    (s.storeLive k v).userFont = s.userFont := rfl
@[simp] theorem storeLive_vsyncEn (s : State) (k : Nat) (v : Byte) :
    (s.storeLive k v).vsyncEn = s.vsyncEn := rfl
@[simp] theorem storeLive_live (s : State) (k : Nat) (v : Byte) :
    (s.storeLive k v).live = s.live.write k v := rfl
@[simp] theorem storeLive_exposed (s : State) (k : Nat) (v : Byte) :
    (s.storeLive k v).exposed = s.exposed := rfl
@[simp] theorem storeLive_fault (s : State) (k : Nat) (v : Byte) :
    (s.storeLive k v).fault = s.fault := rfl
@[simp] theorem storeLive_refused (s : State) (k : Nat) (v : Byte) :
    (s.storeLive k v).refused = s.refused := rfl
@[simp] theorem storeLive_history (s : State) (k : Nat) (v : Byte) :
    (s.storeLive k v).history = s.history := rfl
@[simp] theorem storeLive_resp (s : State) (k : Nat) (v : Byte) :
    (s.storeLive k v).resp = s.resp := rfl
@[simp] theorem storeLive_events (s : State) (k : Nat) (v : Byte) :
    (s.storeLive k v).events = s.events := rfl
@[simp] theorem storeLive_pending (s : State) (k : Nat) (v : Byte) :
    (s.storeLive k v).pending = s.pending := rfl
@[simp] theorem storeLive_firePolicy (s : State) (k : Nat) (v : Byte) :
    (s.storeLive k v).firePolicy = s.firePolicy := rfl
@[simp] theorem storeLive_refreshHz (s : State) (k : Nat) (v : Byte) :
    (s.storeLive k v).refreshHz = s.refreshHz := rfl
@[simp] theorem storeLive_cntW (s : State) (k : Nat) (v : Byte) :
    (s.storeLive k v).cntW = s.cntW := rfl
@[simp] theorem storeLive_addrW (s : State) (k : Nat) (v : Byte) :
    (s.storeLive k v).addrW = s.addrW := rfl
@[simp] theorem storeLive_tickW (s : State) (k : Nat) (v : Byte) :
    (s.storeLive k v).tickW = s.tickW := rfl

/-! ### `State.storeSetup` -/

@[simp] theorem storeSetup_slot (s : State) (v : Byte) : (s.storeSetup v).slot = s.slot := rfl
@[simp] theorem storeSetup_cnt (s : State) (v : Byte) : (s.storeSetup v).cnt = s.cnt := rfl
@[simp] theorem storeSetup_setupReg (s : State) (v : Byte) : (s.storeSetup v).setupReg = v := rfl
@[simp] theorem storeSetup_videoMode (s : State) (v : Byte) :
    (s.storeSetup v).videoMode = s.videoMode := rfl
@[simp] theorem storeSetup_isTextMode (s : State) (v : Byte) :
    (s.storeSetup v).isTextMode = s.isTextMode := rfl
@[simp] theorem storeSetup_blinkAttribute (s : State) (v : Byte) :
    (s.storeSetup v).blinkAttribute = s.blinkAttribute := rfl
@[simp] theorem storeSetup_userFont (s : State) (v : Byte) :
    (s.storeSetup v).userFont = s.userFont := rfl
@[simp] theorem storeSetup_vsyncEn (s : State) (v : Byte) :
    (s.storeSetup v).vsyncEn = s.vsyncEn := rfl
@[simp] theorem storeSetup_live (s : State) (v : Byte) : (s.storeSetup v).live = s.live := rfl
@[simp] theorem storeSetup_exposed (s : State) (v : Byte) :
    (s.storeSetup v).exposed = s.exposed := rfl
@[simp] theorem storeSetup_fault (s : State) (v : Byte) : (s.storeSetup v).fault = s.fault := rfl
@[simp] theorem storeSetup_refused (s : State) (v : Byte) :
    (s.storeSetup v).refused = s.refused := rfl
@[simp] theorem storeSetup_history (s : State) (v : Byte) :
    (s.storeSetup v).history = s.history := rfl
@[simp] theorem storeSetup_resp (s : State) (v : Byte) : (s.storeSetup v).resp = s.resp := rfl
@[simp] theorem storeSetup_events (s : State) (v : Byte) : (s.storeSetup v).events = s.events := rfl
@[simp] theorem storeSetup_pending (s : State) (v : Byte) :
    (s.storeSetup v).pending = s.pending := rfl
@[simp] theorem storeSetup_firePolicy (s : State) (v : Byte) :
    (s.storeSetup v).firePolicy = s.firePolicy := rfl
@[simp] theorem storeSetup_refreshHz (s : State) (v : Byte) :
    (s.storeSetup v).refreshHz = s.refreshHz := rfl
@[simp] theorem storeSetup_cntW (s : State) (v : Byte) : (s.storeSetup v).cntW = s.cntW := rfl
@[simp] theorem storeSetup_addrW (s : State) (v : Byte) : (s.storeSetup v).addrW = s.addrW := rfl
@[simp] theorem storeSetup_tickW (s : State) (v : Byte) : (s.storeSetup v).tickW = s.tickW := rfl

/-! ### `State.snapshot` -/

@[simp] theorem snapshot_slot (s : State) (c k t : Nat) : (s.snapshot c k t).slot = s.slot := rfl
@[simp] theorem snapshot_cnt (s : State) (c k t : Nat) :
    (s.snapshot c k t).cnt = residue c k t := rfl
@[simp] theorem snapshot_setupReg (s : State) (c k t : Nat) :
    (s.snapshot c k t).setupReg = s.setupReg := rfl
@[simp] theorem snapshot_videoMode (s : State) (c k t : Nat) :
    (s.snapshot c k t).videoMode = s.videoMode := rfl
@[simp] theorem snapshot_isTextMode (s : State) (c k t : Nat) :
    (s.snapshot c k t).isTextMode = s.isTextMode := rfl
@[simp] theorem snapshot_blinkAttribute (s : State) (c k t : Nat) :
    (s.snapshot c k t).blinkAttribute = s.blinkAttribute := rfl
@[simp] theorem snapshot_userFont (s : State) (c k t : Nat) :
    (s.snapshot c k t).userFont = s.userFont := rfl
@[simp] theorem snapshot_vsyncEn (s : State) (c k t : Nat) :
    (s.snapshot c k t).vsyncEn = s.vsyncEn := rfl
@[simp] theorem snapshot_live (s : State) (c k t : Nat) : (s.snapshot c k t).live = s.live := rfl
@[simp] theorem snapshot_exposed (s : State) (c k t : Nat) :
    (s.snapshot c k t).exposed = if 1 ≤ k then s.live else s.exposed := rfl
@[simp] theorem snapshot_fault (s : State) (c k t : Nat) : (s.snapshot c k t).fault = s.fault := rfl
@[simp] theorem snapshot_refused (s : State) (c k t : Nat) :
    (s.snapshot c k t).refused = s.refused := rfl
@[simp] theorem snapshot_history (s : State) (c k t : Nat) :
    (s.snapshot c k t).history = s.history := rfl
@[simp] theorem snapshot_resp (s : State) (c k t : Nat) : (s.snapshot c k t).resp = s.resp := rfl
@[simp] theorem snapshot_events (s : State) (c k t : Nat) :
    (s.snapshot c k t).events = s.events := rfl
@[simp] theorem snapshot_pending (s : State) (c k t : Nat) :
    (s.snapshot c k t).pending = s.pending := rfl
@[simp] theorem snapshot_firePolicy (s : State) (c k t : Nat) :
    (s.snapshot c k t).firePolicy = s.firePolicy := rfl
@[simp] theorem snapshot_refreshHz (s : State) (c k t : Nat) :
    (s.snapshot c k t).refreshHz = s.refreshHz := rfl
@[simp] theorem snapshot_cntW (s : State) (c k t : Nat) : (s.snapshot c k t).cntW = s.cntW := rfl
@[simp] theorem snapshot_addrW (s : State) (c k t : Nat) : (s.snapshot c k t).addrW = s.addrW := rfl
@[simp] theorem snapshot_tickW (s : State) (c k t : Nat) : (s.snapshot c k t).tickW = s.tickW := rfl

/-! ### `State.take` -/

@[simp] theorem take_slot (s : State) (rest : List Request) : (s.take rest).slot = s.slot := rfl
@[simp] theorem take_cnt (s : State) (rest : List Request) : (s.take rest).cnt = s.cnt := rfl
@[simp] theorem take_setupReg (s : State) (rest : List Request) :
    (s.take rest).setupReg = s.setupReg := rfl
@[simp] theorem take_videoMode (s : State) (rest : List Request) :
    (s.take rest).videoMode = s.videoMode := rfl
@[simp] theorem take_isTextMode (s : State) (rest : List Request) :
    (s.take rest).isTextMode = s.isTextMode := rfl
@[simp] theorem take_blinkAttribute (s : State) (rest : List Request) :
    (s.take rest).blinkAttribute = s.blinkAttribute := rfl
@[simp] theorem take_userFont (s : State) (rest : List Request) :
    (s.take rest).userFont = s.userFont := rfl
@[simp] theorem take_vsyncEn (s : State) (rest : List Request) :
    (s.take rest).vsyncEn = s.vsyncEn := rfl
@[simp] theorem take_live (s : State) (rest : List Request) : (s.take rest).live = s.live := rfl
@[simp] theorem take_exposed (s : State) (rest : List Request) :
    (s.take rest).exposed = s.exposed := rfl
@[simp] theorem take_fault (s : State) (rest : List Request) : (s.take rest).fault = s.fault := rfl
@[simp] theorem take_refused (s : State) (rest : List Request) :
    (s.take rest).refused = s.refused := rfl
@[simp] theorem take_history (s : State) (rest : List Request) :
    (s.take rest).history = s.history := rfl
@[simp] theorem take_resp (s : State) (rest : List Request) : (s.take rest).resp = s.resp := rfl
@[simp] theorem take_events (s : State) (rest : List Request) :
    (s.take rest).events = s.events := rfl
@[simp] theorem take_pending (s : State) (rest : List Request) : (s.take rest).pending = rest := rfl
@[simp] theorem take_firePolicy (s : State) (rest : List Request) :
    (s.take rest).firePolicy = s.firePolicy := rfl
@[simp] theorem take_refreshHz (s : State) (rest : List Request) :
    (s.take rest).refreshHz = s.refreshHz := rfl
@[simp] theorem take_cntW (s : State) (rest : List Request) : (s.take rest).cntW = s.cntW := rfl
@[simp] theorem take_addrW (s : State) (rest : List Request) : (s.take rest).addrW = s.addrW := rfl
@[simp] theorem take_tickW (s : State) (rest : List Request) : (s.take rest).tickW = s.tickW := rfl

/-! ### `State.record` -/

@[simp] theorem record_slot (s : State) (e : Entry) : (s.record e).slot = s.slot := rfl
@[simp] theorem record_cnt (s : State) (e : Entry) : (s.record e).cnt = s.cnt := rfl
@[simp] theorem record_setupReg (s : State) (e : Entry) : (s.record e).setupReg = s.setupReg := rfl
@[simp] theorem record_videoMode (s : State) (e : Entry) :
    (s.record e).videoMode = s.videoMode := rfl
@[simp] theorem record_isTextMode (s : State) (e : Entry) :
    (s.record e).isTextMode = s.isTextMode := rfl
@[simp] theorem record_blinkAttribute (s : State) (e : Entry) :
    (s.record e).blinkAttribute = s.blinkAttribute := rfl
@[simp] theorem record_userFont (s : State) (e : Entry) : (s.record e).userFont = s.userFont := rfl
@[simp] theorem record_vsyncEn (s : State) (e : Entry) : (s.record e).vsyncEn = s.vsyncEn := rfl
@[simp] theorem record_live (s : State) (e : Entry) : (s.record e).live = s.live := rfl
@[simp] theorem record_exposed (s : State) (e : Entry) : (s.record e).exposed = s.exposed := rfl
@[simp] theorem record_fault (s : State) (e : Entry) : (s.record e).fault = s.fault := rfl
@[simp] theorem record_refused (s : State) (e : Entry) : (s.record e).refused = s.refused := rfl
@[simp] theorem record_history (s : State) (e : Entry) :
    (s.record e).history = s.history ++ [e] := rfl
@[simp] theorem record_resp (s : State) (e : Entry) : (s.record e).resp = s.resp := rfl
@[simp] theorem record_events (s : State) (e : Entry) : (s.record e).events = s.events := rfl
@[simp] theorem record_pending (s : State) (e : Entry) : (s.record e).pending = s.pending := rfl
@[simp] theorem record_firePolicy (s : State) (e : Entry) :
    (s.record e).firePolicy = s.firePolicy := rfl
@[simp] theorem record_refreshHz (s : State) (e : Entry) :
    (s.record e).refreshHz = s.refreshHz := rfl
@[simp] theorem record_cntW (s : State) (e : Entry) : (s.record e).cntW = s.cntW := rfl
@[simp] theorem record_addrW (s : State) (e : Entry) : (s.record e).addrW = s.addrW := rfl
@[simp] theorem record_tickW (s : State) (e : Entry) : (s.record e).tickW = s.tickW := rfl

/-! ### `State.latchFault` -/

@[simp] theorem latchFault_slot (s : State) (f : Fault) : (s.latchFault f).slot = s.slot := rfl
@[simp] theorem latchFault_cnt (s : State) (f : Fault) : (s.latchFault f).cnt = s.cnt := rfl
@[simp] theorem latchFault_setupReg (s : State) (f : Fault) :
    (s.latchFault f).setupReg = s.setupReg := rfl
@[simp] theorem latchFault_videoMode (s : State) (f : Fault) :
    (s.latchFault f).videoMode = s.videoMode := rfl
@[simp] theorem latchFault_isTextMode (s : State) (f : Fault) :
    (s.latchFault f).isTextMode = s.isTextMode := rfl
@[simp] theorem latchFault_blinkAttribute (s : State) (f : Fault) :
    (s.latchFault f).blinkAttribute = s.blinkAttribute := rfl
@[simp] theorem latchFault_userFont (s : State) (f : Fault) :
    (s.latchFault f).userFont = s.userFont := rfl
@[simp] theorem latchFault_vsyncEn (s : State) (f : Fault) :
    (s.latchFault f).vsyncEn = s.vsyncEn := rfl
@[simp] theorem latchFault_live (s : State) (f : Fault) : (s.latchFault f).live = s.live := rfl
@[simp] theorem latchFault_exposed (s : State) (f : Fault) :
    (s.latchFault f).exposed = s.exposed := rfl
@[simp] theorem latchFault_fault (s : State) (f : Fault) : (s.latchFault f).fault = some f := rfl
@[simp] theorem latchFault_refused (s : State) (f : Fault) :
    (s.latchFault f).refused = s.refused := rfl
@[simp] theorem latchFault_history (s : State) (f : Fault) :
    (s.latchFault f).history = s.history := rfl
@[simp] theorem latchFault_resp (s : State) (f : Fault) : (s.latchFault f).resp = none := rfl
@[simp] theorem latchFault_events (s : State) (f : Fault) : (s.latchFault f).events = [] := rfl
@[simp] theorem latchFault_pending (s : State) (f : Fault) :
    (s.latchFault f).pending = s.pending := rfl
@[simp] theorem latchFault_firePolicy (s : State) (f : Fault) :
    (s.latchFault f).firePolicy = s.firePolicy := rfl
@[simp] theorem latchFault_refreshHz (s : State) (f : Fault) :
    (s.latchFault f).refreshHz = s.refreshHz := rfl
@[simp] theorem latchFault_cntW (s : State) (f : Fault) : (s.latchFault f).cntW = s.cntW := rfl
@[simp] theorem latchFault_addrW (s : State) (f : Fault) : (s.latchFault f).addrW = s.addrW := rfl
@[simp] theorem latchFault_tickW (s : State) (f : Fault) : (s.latchFault f).tickW = s.tickW := rfl

/-! ### `State.latchRefusal` -/

@[simp] theorem latchRefusal_slot (s : State) : (s.latchRefusal).slot = s.slot := rfl
@[simp] theorem latchRefusal_cnt (s : State) : (s.latchRefusal).cnt = s.cnt := rfl
@[simp] theorem latchRefusal_setupReg (s : State) : (s.latchRefusal).setupReg = s.setupReg := rfl
@[simp] theorem latchRefusal_videoMode (s : State) : (s.latchRefusal).videoMode = s.videoMode := rfl
@[simp] theorem latchRefusal_isTextMode (s : State) :
    (s.latchRefusal).isTextMode = s.isTextMode := rfl
@[simp] theorem latchRefusal_blinkAttribute (s : State) :
    (s.latchRefusal).blinkAttribute = s.blinkAttribute := rfl
@[simp] theorem latchRefusal_userFont (s : State) : (s.latchRefusal).userFont = s.userFont := rfl
@[simp] theorem latchRefusal_vsyncEn (s : State) : (s.latchRefusal).vsyncEn = s.vsyncEn := rfl
@[simp] theorem latchRefusal_live (s : State) : (s.latchRefusal).live = s.live := rfl
@[simp] theorem latchRefusal_exposed (s : State) : (s.latchRefusal).exposed = s.exposed := rfl
@[simp] theorem latchRefusal_fault (s : State) : (s.latchRefusal).fault = s.fault := rfl
@[simp] theorem latchRefusal_refused (s : State) : (s.latchRefusal).refused = true := rfl
@[simp] theorem latchRefusal_history (s : State) : (s.latchRefusal).history = s.history := rfl
@[simp] theorem latchRefusal_resp (s : State) : (s.latchRefusal).resp = none := rfl
@[simp] theorem latchRefusal_events (s : State) : (s.latchRefusal).events = [] := rfl
@[simp] theorem latchRefusal_pending (s : State) : (s.latchRefusal).pending = s.pending := rfl
@[simp] theorem latchRefusal_firePolicy (s : State) :
    (s.latchRefusal).firePolicy = s.firePolicy := rfl
@[simp] theorem latchRefusal_refreshHz (s : State) : (s.latchRefusal).refreshHz = s.refreshHz := rfl
@[simp] theorem latchRefusal_cntW (s : State) : (s.latchRefusal).cntW = s.cntW := rfl
@[simp] theorem latchRefusal_addrW (s : State) : (s.latchRefusal).addrW = s.addrW := rfl
@[simp] theorem latchRefusal_tickW (s : State) : (s.latchRefusal).tickW = s.tickW := rfl

end Sys2Proof.Machine.State
end

