-- ==== Sys2Proof/Laws/Ops.lean ====
section
/-! SUPPORT. What each shared operation can do, said once. -/

namespace Sys2Proof.Machine

/-! ### Windows and offsets -/

theorem busOffset_busAddress (slot : Slot) (off : Word) :
    busOffset slot (busAddress slot off) = off := by
  simp [busOffset, busAddress]

theorem busAddress_busOffset (slot : Slot) (addr : Word) :
    busAddress slot (busOffset slot addr) = addr := by
  simp [busOffset, busAddress]

theorem inVram_iff (f : Word) : inVram f = true ↔ f.toNat < 0x4400 := by
  exact decide_eq_true_iff

/-- The bus address of an offset, as numbers: the block of a slot ends below `2^32` (R60). -/
theorem busAddress_toNat (slot : Slot) (off : Word) :
    (busAddress slot off).toNat = ((base slot).toNat + off.toNat) % 2 ^ 32 := by
  simp [busAddress, BitVec.toNat_add]

theorem base_bounds (slot : Slot) :
    0xFF0A0000 ≤ (base slot).toNat ∧ (base slot).toNat ≤ 0xFF0D0000 := by
  cases slot <;> decide

theorem setup_begin (slot : Slot) :
    (window slot .setup).begin.toNat = (base slot).toNat + 0xCC00 := by
  cases slot <;> rfl

theorem vram_contains (slot : Slot) (off : Word) :
    (window slot .vram).contains (busAddress slot off) = inVram off := by
  obtain ⟨h₁, h₂⟩ := base_bounds slot
  have := off.isLt
  rw [Bool.eq_iff_iff, inVram_iff]
  simp only [window, Window.contains, Bool.and_eq_true, decide_eq_true_eq, busAddress_toNat, vramSize]
  omega

theorem setup_contains (slot : Slot) (off : Word) :
    (window slot .setup).contains (busAddress slot off) = (off == setupOffset) := by
  obtain ⟨h₁, h₂⟩ := base_bounds slot
  have := off.isLt
  have hs : setupOffset.toNat = 0xCC00 := rfl
  rw [Bool.eq_iff_iff, beq_iff_eq, ← BitVec.toNat_inj, hs]
  have hsz : (window slot .setup).size = 1 := rfl
  simp only [Window.contains, Bool.and_eq_true, decide_eq_true_eq, busAddress_toNat, setup_begin, hsz]
  omega

theorem vram_offset {slot : Slot} {off : Word} (h : inVram off = true) :
    (window slot .vram).offset (busAddress slot off) = off.toNat := by
  obtain ⟨h₁, h₂⟩ := base_bounds slot
  rw [inVram_iff] at h
  simp only [window, Window.offset, busAddress_toNat]
  omega

/-- The dispatcher's choice is the choice of the opcode table (R60, R63). -/
theorem regionAt_busAddress (slot : Slot) (off : Word) :
    regionAt slot (busAddress slot off) =
      if inVram off then some .vram else if off = setupOffset then some .setup else none := by
  simp only [regionAt, List.find?_cons, List.find?_nil, vram_contains, setup_contains]
  cases h : inVram off with
  | true => rfl
  | false =>
    by_cases h' : off = setupOffset
    · rw [if_neg (by decide), if_pos h', beq_iff_eq.2 h']
    · rw [if_neg (by decide), if_neg h', beq_eq_false_iff_ne.2 h']

/-! ### Region operations -/

theorem readByte_of_contains {r : RegionId} {addr : Word} {s : State}
    (h : (window s.slot r).contains addr = true) :
    readByte r addr s = .next (s.answer (.byte (regionRead s r addr)) []) := if_pos h

theorem readByte_of_not_contains {r : RegionId} {addr : Word} {s : State}
    (h : (window s.slot r).contains addr = false) :
    readByte r addr s =
      .next (s.answer (.addressingError ⟨addressingErrorCode, addr, .read, some r⟩) []) :=
  if_neg (by simp [h])

theorem writeByte_of_contains {r : RegionId} {addr : Word} {v : Byte} {s : State}
    (h : (window s.slot r).contains addr = true) :
    writeByte r addr v s = .next ((regionWrite s r addr v).answer .ok []) := if_pos h

theorem writeByte_of_not_contains {r : RegionId} {addr : Word} {v : Byte} {s : State}
    (h : (window s.slot r).contains addr = false) :
    writeByte r addr v s =
      .next (s.answer (.addressingError ⟨addressingErrorCode, addr, .write, some r⟩) []) :=
  if_neg (by simp [h])

/-- A region's read answers and changes nothing else. -/
theorem readByte_next {r : RegionId} {addr : Word} {s t : State} (h : readByte r addr s = .next t) :
    ∃ a, t = s.answer a [] := by
  cases hc : (window s.slot r).contains addr with
  | true => rw [readByte_of_contains hc] at h; cases h; exact ⟨_, rfl⟩
  | false => rw [readByte_of_not_contains hc] at h; cases h; exact ⟨_, rfl⟩

/-- A region's write stores in its window, or changes nothing. -/
theorem writeByte_next {r : RegionId} {addr : Word} {v : Byte} {s t : State}
    (h : writeByte r addr v s = .next t) :
    ((window s.slot r).contains addr = true ∧ t = (regionWrite s r addr v).answer .ok []) ∨
    (∃ a, t = s.answer a []) := by
  cases hc : (window s.slot r).contains addr with
  | true => rw [writeByte_of_contains hc] at h; cases h; exact .inl ⟨rfl, rfl⟩
  | false => rw [writeByte_of_not_contains hc] at h; cases h; exact .inr ⟨_, rfl⟩

theorem readByte_completes (r : RegionId) (addr : Word) (s : State) :
    ∃ t, readByte r addr s = .next t := by
  unfold readByte
  split <;> exact ⟨_, rfl⟩

theorem writeByte_completes (r : RegionId) (addr : Word) (v : Byte) (s : State) :
    ∃ t, writeByte r addr v s = .next t := by
  unfold writeByte
  split <;> exact ⟨_, rfl⟩

theorem setupWrite_contains (slot : Slot) :
    (window slot .setup).contains (busAddress slot setupOffset) = true := by
  rw [setup_contains]; rfl

/-- An offset inside the Video Memory window is below `VRAM_SIZE`. -/
theorem vram_offset_lt {slot : Slot} {addr : Word}
    (h : (window slot .vram).contains addr = true) :
    (window slot .vram).offset addr < vramSize := by
  simp only [Window.contains, Bool.and_eq_true, decide_eq_true_eq] at h
  have hs : (window slot .vram).size = vramSize := rfl
  unfold Window.offset
  omega

/-! ### The exposed buffer -/

theorem readExposed_next {k : Word} {s t : State} (h : readExposed k s = .next t) :
    ∃ a, t = s.answer a [] := by
  unfold readExposed at h
  split at h <;> cases h <;> exact ⟨_, rfl⟩

theorem readExposed_completes (k : Word) (s : State) : ∃ t, readExposed k s = .next t := by
  unfold readExposed
  split <;> exact ⟨_, rfl⟩

/-! ### The tick -/

theorem threshold_eq_zero_iff {hz : Nat} (h : 0 < hz) (clockHz : Nat) :
    threshold hz clockHz = 0 ↔ clockHz < hz := Nat.div_eq_zero_iff_lt h

/-- Twice a threshold is at most the clock rate, at a refresh rate of at least 2 (R97). -/
theorem two_threshold_le {hz : Nat} (h : 2 ≤ hz) (clockHz : Nat) :
    2 * threshold hz clockHz ≤ clockHz := by
  have : threshold hz clockHz ≤ clockHz / 2 := Nat.div_le_div_left h (by decide)
  omega

theorem crossings_pos_iff {p : FirePolicy} {c t : Nat} (ht : t ≠ 0) :
    1 ≤ crossings p c t ↔ t ≤ c := by
  cases p with
  | singleFire =>
    show 1 ≤ (if t ≤ c then 1 else 0) ↔ t ≤ c
    split <;> omega
  | perCrossing =>
    show 1 ≤ c / t ↔ t ≤ c
    rw [Nat.le_div_iff_mul_le (by omega), Nat.one_mul]

/-- The cycles that `k` crossings take are there to be taken. -/
theorem crossings_mul_le (p : FirePolicy) (c t : Nat) : crossings p c t * t ≤ c := by
  cases p with
  | singleFire =>
    show (if t ≤ c then 1 else 0) * t ≤ c
    split <;> omega
  | perCrossing => exact Nat.div_mul_le_self c t

/-- Everything a TICK that completes does, and when. -/
theorem execTick_next {clockHz n : Nat} {s t : State} :
    execTick clockHz n s = .next t ↔
      threshold s.refreshHz clockHz ≠ 0 ∧ tickSum s.cnt n ≤ cntMax s.cntW ∧
      t = (s.snapshot (tickSum s.cnt n)
          (crossings s.firePolicy (tickSum s.cnt n) (threshold s.refreshHz clockHz))
          (threshold s.refreshHz clockHz)).answer
        .ok (s.vsyncMsgs
          (crossings s.firePolicy (tickSum s.cnt n) (threshold s.refreshHz clockHz))) := by
  unfold execTick
  split
  · simp [*]
  · split
    · simp; omega
    · simp only [Host.Outcome.next.injEq]
      constructor
      · rintro rfl; exact ⟨‹_›, by omega, rfl⟩
      · rintro ⟨-, -, rfl⟩; rfl

/-- When a TICK faults, and with which fault (R117, R119). -/
theorem execTick_fault {clockHz n : Nat} {s : State} {x : Fault} :
    execTick clockHz n s = .fault x ↔
      (threshold s.refreshHz clockHz = 0 ∧ x = .zeroThreshold) ∨
      (threshold s.refreshHz clockHz ≠ 0 ∧ cntMax s.cntW < tickSum s.cnt n ∧ x = .counterOverflow) := by
  unfold execTick
  by_cases h₀ : threshold s.refreshHz clockHz = 0
  · simp [h₀, eq_comm (a := Fault.zeroThreshold)]
  · by_cases h₁ : cntMax s.cntW < tickSum s.cnt n
    · simp [h₀, h₁, eq_comm (a := Fault.counterOverflow)]
    · simp [h₀, h₁]

/-- A TICK completes or faults. -/
theorem execTick_stops (clockHz n : Nat) (s : State) :
    (∃ t, execTick clockHz n s = .next t) ∨ ∃ x, execTick clockHz n s = .fault x := by
  unfold execTick
  split
  · exact .inr ⟨_, rfl⟩
  · split
    · exact .inr ⟨_, rfl⟩
    · exact .inl ⟨_, rfl⟩

theorem mem_vsyncMsgs {s : State} {k : Nat} {m : Msg} (h : m ∈ s.vsyncMsgs k) :
    m = irqMsg s.slot := by
  unfold State.vsyncMsgs at h
  split at h
  · exact List.eq_of_mem_replicate h
  · simp at h

end Sys2Proof.Machine
end

