-- ==== Sys2Proof/Laws/Exec.lean ====
section
/-! SUPPORT. Everything one operation can do to the state, said once. -/

namespace Sys2Proof.Machine

open Host.Outcome

/-- An operation that completes only answers, or stores one live byte, or stores the setup byte, or
ticks, or sets the configuration flags. -/
theorem exec_next {i : Instr} {s t : State} (h : exec i s = .next t) :
    (∃ a, t = s.answer a []) ∨
    (∃ off v, i = .vramWr off v ∧ inVram off = true ∧
      t = (s.storeLive off.toNat v).answer .ok []) ∨
    (∃ v, i = .setupWr v ∧ t = ((s.storeSetup v).modeUpdate v).answer .ok []) ∨
    (∃ f n, i = .tick f n ∧ execTick f n s = .next t) ∨
    (∃ b u e, i = .configWr b u e ∧ t = (s.setFlags b u e).answer .ok []) := by
  cases i with
  | vramRd off =>
    have h : readByte .vram (busAddress s.slot off) s = .next t := h
    exact .inl (readByte_next h)
  | setupRd =>
    have h : readByte .setup (busAddress s.slot setupOffset) s = .next t := h
    exact .inl (readByte_next h)
  | busRdNowin off => cases h; exact .inl ⟨_, rfl⟩
  | vramWr off v =>
    have h : writeByte .vram (busAddress s.slot off) v s = .next t := h
    rcases writeByte_next h with ⟨hc, rfl⟩ | hr
    · rw [vram_contains] at hc
      exact .inr (.inl ⟨off, v, rfl, hc, by rw [regionWrite, vram_offset hc]⟩)
    · exact .inl hr
  | setupWr v =>
    have h : writeByte .setup (busAddress s.slot setupOffset) v s = .next t := h
    rcases writeByte_next h with ⟨-, rfl⟩ | hr
    · exact .inr (.inr (.inl ⟨v, rfl, rfl⟩))
    · exact .inl hr
  | busWrNowin off v => cases h; exact .inl ⟨_, rfl⟩
  | tick f n => exact .inr (.inr (.inr (.inl ⟨f, n, rfl, h⟩)))
  | configWr b u e => cases h; exact .inr (.inr (.inr (.inr ⟨b, u, e, rfl, rfl⟩)))
  | exposedRd => cases h; exact .inl ⟨_, rfl⟩
  | exposedRdb k => exact .inl (readExposed_next h)
  | exposedRdbNowin k => cases h; exact .inl ⟨_, rfl⟩
  | modeRd => cases h; exact .inl ⟨_, rfl⟩
  | textRd => cases h; exact .inl ⟨_, rfl⟩
  | blinkRd => cases h; exact .inl ⟨_, rfl⟩
  | userfontRd => cases h; exact .inl ⟨_, rfl⟩
  | identRd => cases h; exact .inl ⟨_, rfl⟩
  | regionsRd => cases h; exact .inl ⟨_, rfl⟩

/-- No operation is refused, and only TICK faults. -/
theorem exec_stops {i : Instr} {s : State} :
    (∃ t, exec i s = .next t) ∨ ∃ f n x, i = .tick f n ∧ exec i s = .fault x := by
  cases i with
  | vramRd off => exact .inl (readByte_completes .vram (busAddress s.slot off) s)
  | setupRd => exact .inl (readByte_completes .setup (busAddress s.slot setupOffset) s)
  | busRdNowin off => exact .inl ⟨_, rfl⟩
  | vramWr off v => exact .inl (writeByte_completes .vram (busAddress s.slot off) v s)
  | setupWr v => exact .inl (writeByte_completes .setup (busAddress s.slot setupOffset) v s)
  | busWrNowin off v => exact .inl ⟨_, rfl⟩
  | tick f n =>
    rcases execTick_stops f n s with h | ⟨x, h⟩
    · exact .inl h
    · exact .inr ⟨f, n, x, rfl, h⟩
  | configWr b u e => exact .inl ⟨_, rfl⟩
  | exposedRd => exact .inl ⟨_, rfl⟩
  | exposedRdb k => exact .inl (readExposed_completes k s)
  | exposedRdbNowin k => exact .inl ⟨_, rfl⟩
  | modeRd => exact .inl ⟨_, rfl⟩
  | textRd => exact .inl ⟨_, rfl⟩
  | blinkRd => exact .inl ⟨_, rfl⟩
  | userfontRd => exact .inl ⟨_, rfl⟩
  | identRd => exact .inl ⟨_, rfl⟩
  | regionsRd => exact .inl ⟨_, rfl⟩

/-! ### Runs of operations -/

@[simp] theorem runOps_nil (s : State) : runOps [] s = some (s, []) := rfl

/-- A run whose first operation completes. -/
theorem runOps_cons_of_next {i : Instr} {s t : State} (is : List Instr) (h : exec i s = .next t) :
    runOps (i :: is) s = (runOps is t).map fun r => (r.1, t.events ++ r.2) := by
  rw [runOps, h]

@[simp] theorem runWithoutCrossing_nil (s : State) : runWithoutCrossing [] s = some s := rfl

/-- A run without a crossing: its first operation makes none and completes, and the rest is such a run. -/
theorem runWithoutCrossing_cons {i : Instr} {is : List Instr} {s t : State} :
    runWithoutCrossing (i :: is) s = some t ↔
      crosses s i = false ∧ ∃ u, exec i s = .next u ∧ runWithoutCrossing is u = some t := by
  rw [runWithoutCrossing]
  cases crosses s i <;> cases exec i s <;> simp

/-- Twice the threshold of a rate that fits is below `2^CNT_W` (R97). -/
theorem State.rateFits.two_threshold_lt {s : State} {clockHz : Nat} (h : s.rateFits clockHz) :
    2 * threshold s.refreshHz clockHz < 2 ^ s.cntW :=
  Nat.lt_of_le_of_lt (two_threshold_le h.2.2 clockHz)
    (Nat.lt_of_lt_of_le h.1 (Nat.pow_le_pow_right (by decide) h.2.1))

end Sys2Proof.Machine
end

