-- ==== Sys2Proof/Laws/PerInstr.lean ====
section
/-! SUPPORT. Per operation: the fields of its words are the ones R63 gives its row. -/

namespace Sys2Proof.Laws.EncodedFields

/-- The code and the field `f` of an encoded operation (R59, R62, R63), and its side operands. -/
def Statement : Instr → Prop
  | .vramRd off => (keyOpc (encode (.vramRd off)).key, keyF (encode (.vramRd off)).key) = (0x0, off)
  | .setupRd => (keyOpc (encode .setupRd).key, keyF (encode .setupRd).key) = (0x0, 0xCC00)
  | .busRdNowin off =>
    (keyOpc (encode (.busRdNowin off)).key, keyF (encode (.busRdNowin off)).key) = (0x0, off)
  | .vramWr off v => (keyOpc (encode (.vramWr off v)).key, keyF (encode (.vramWr off v)).key,
      (encode (.vramWr off v)).side.data) = (0x1, off, v)
  | .setupWr v => (keyOpc (encode (.setupWr v)).key, keyF (encode (.setupWr v)).key,
      (encode (.setupWr v)).side.data) = (0x1, 0xCC00, v)
  | .busWrNowin off v => (keyOpc (encode (.busWrNowin off v)).key,
      keyF (encode (.busWrNowin off v)).key, (encode (.busWrNowin off v)).side.data) = (0x1, off, v)
  | .tick f n => (keyOpc (encode (.tick f n)).key, keyF (encode (.tick f n)).key,
      (encode (.tick f n)).side.clockHz, (encode (.tick f n)).side.n) = (0x2, 0, f, some n)
  | .configWr b u e => (keyOpc (encode (.configWr b u e)).key, keyF (encode (.configWr b u e)).key,
      (encode (.configWr b u e)).side.blink, (encode (.configWr b u e)).side.userFont,
      (encode (.configWr b u e)).side.vsyncEn) = (0x3, 0, b, u, e)
  | .exposedRd => (keyOpc (encode .exposedRd).key, keyF (encode .exposedRd).key) = (0x4, 0)
  | .exposedRdb k =>
    (keyOpc (encode (.exposedRdb k)).key, keyF (encode (.exposedRdb k)).key) = (0x5, k)
  | .exposedRdbNowin k =>
    (keyOpc (encode (.exposedRdbNowin k)).key, keyF (encode (.exposedRdbNowin k)).key) = (0x5, k)
  | .modeRd => (keyOpc (encode .modeRd).key, keyF (encode .modeRd).key) = (0x6, 0)
  | .textRd => (keyOpc (encode .textRd).key, keyF (encode .textRd).key) = (0x7, 0)
  | .blinkRd => (keyOpc (encode .blinkRd).key, keyF (encode .blinkRd).key) = (0x8, 0)
  | .userfontRd => (keyOpc (encode .userfontRd).key, keyF (encode .userfontRd).key) = (0x9, 0)
  | .identRd => (keyOpc (encode .identRd).key, keyF (encode .identRd).key) = (0xA, 0)
  | .regionsRd => (keyOpc (encode .regionsRd).key, keyF (encode .regionsRd).key) = (0xB, 0)

theorem vramRd (off : Word) : Statement (.vramRd off) := by simp [Statement, encode]
theorem setupRd : Statement .setupRd := by simp [Statement, encode, Machine.setupOffset]
theorem busRdNowin (off : Word) : Statement (.busRdNowin off) := by simp [Statement, encode]
theorem vramWr (off : Word) (v : Byte) : Statement (.vramWr off v) := by simp [Statement, encode]
theorem setupWr (v : Byte) : Statement (.setupWr v) := by
  simp [Statement, encode, Machine.setupOffset]
theorem busWrNowin (off : Word) (v : Byte) : Statement (.busWrNowin off v) := by
  simp [Statement, encode]
theorem tick (f n : Nat) : Statement (.tick f n) := by simp [Statement, encode]
theorem configWr (b u e : Bool) : Statement (.configWr b u e) := by simp [Statement, encode]
theorem exposedRd : Statement .exposedRd := by simp [Statement, encode]
theorem exposedRdb (k : Word) : Statement (.exposedRdb k) := by simp [Statement, encode]
theorem exposedRdbNowin (k : Word) : Statement (.exposedRdbNowin k) := by simp [Statement, encode]
theorem modeRd : Statement .modeRd := by simp [Statement, encode]
theorem textRd : Statement .textRd := by simp [Statement, encode]
theorem blinkRd : Statement .blinkRd := by simp [Statement, encode]
theorem userfontRd : Statement .userfontRd := by simp [Statement, encode]
theorem identRd : Statement .identRd := by simp [Statement, encode]
theorem regionsRd : Statement .regionsRd := by simp [Statement, encode]

end Sys2Proof.Laws.EncodedFields
end

