-- ==== Sys2Proof/Laws/Step.lean ====
section
/-! SUPPORT. Everything one request, and one step, can do, said once. -/

namespace Sys2Proof.Machine

/-- A request that completes is an operation, or a direct call of a region's operation. -/
theorem perform_next {q : Request} {s t : State} (h : perform q s = .next t) :
    (∃ i, decode (q.encoded s.slot) = .ok i ∧ exec i s = .next t) ∨
    (∃ r, readByte r q.addr s = .next t) ∨
    (∃ r, writeByte r q.addr q.side.data s = .next t) := by
  unfold perform at h
  split at h
  · exact nomatch h
  · split at h
    · exact nomatch h
    · split at h
      · unfold performDirect at h
        split at h
        · exact .inr (.inr ⟨_, h⟩)
        · exact .inr (.inl ⟨_, h⟩)
      · exact .inl ⟨_, ‹_›, h⟩

/-- What a request that completes does to the device: it only answers, or stores one live byte, or
stores the setup byte, or ticks, or sets the configuration flags. -/
theorem perform_effect {q : Request} {s t : State} (h : perform q s = .next t) :
    (∃ a, t = s.answer a []) ∨
    (∃ k v, k < vramSize ∧ t = (s.storeLive k v).answer .ok []) ∨
    (∃ v, t = ((s.storeSetup v).modeUpdate v).answer .ok []) ∨
    (∃ f n, execTick f n s = .next t) ∨
    (∃ b u e, t = (s.setFlags b u e).answer .ok []) := by
  rcases perform_next h with ⟨i, -, h⟩ | ⟨r, h⟩ | ⟨r, h⟩
  · rcases exec_next h with h | ⟨off, v, -, hv, h⟩ | ⟨v, -, h⟩ | ⟨f, n, -, h⟩ | ⟨b, u, e, -, h⟩
    · exact .inl h
    · exact .inr (.inl ⟨_, v, by simpa [inVram] using hv, h⟩)
    · exact .inr (.inr (.inl ⟨v, h⟩))
    · exact .inr (.inr (.inr (.inl ⟨f, n, h⟩)))
    · exact .inr (.inr (.inr (.inr ⟨b, u, e, h⟩)))
  · exact .inl (readByte_next h)
  · rcases writeByte_next h with ⟨hc, h⟩ | h
    · cases r with
      | vram => exact .inr (.inl ⟨_, _, vram_offset_lt hc, h⟩)
      | setup => exact .inr (.inr (.inl ⟨_, h⟩))
    · exact .inl h

/-- Everything a step that completes does: nothing without a request; else it books the request on the
state the request leaves, or on the state before it with a mark. -/
theorem step_next {s t : State} (h : step s = .next t) :
    s.fault = none ∧
    ((s.pending = [] ∧ t = s) ∨
     ∃ q rest, s.pending = q :: rest ∧
      ((∃ u, perform q (s.take rest) = .next u ∧
          t = u.record { request := q, resp := u.resp, msgs := u.events }) ∨
       (∃ f, perform q (s.take rest) = .fault f ∧
          t = ((s.take rest).latchFault f).record
            { request := q, resp := none, msgs := [], fault := some f }) ∨
       (∃ r, perform q (s.take rest) = .refused r ∧
          t = (s.take rest).latchRefusal.record
            { request := q, resp := none, msgs := [], refusal := some r }))) := by
  unfold step at h
  split at h
  · exact nomatch h
  · rename_i hf hp
    cases h
    exact ⟨hf, .inl ⟨hp, rfl⟩⟩
  · rename_i q rest hf hp
    refine ⟨hf, .inr ⟨q, rest, hp, ?_⟩⟩
    unfold serve settle at h
    split at h <;> cases h
    · exact .inl ⟨_, ‹_›, rfl⟩
    · exact .inr (.inl ⟨_, ‹_›, rfl⟩)
    · exact .inr (.inr ⟨_, ‹_›, rfl⟩)

/-- A step with a request waiting serves that request. -/
theorem step_of_pending {s : State} {q : Request} {rest : List Request} (hf : s.fault = none)
    (hp : s.pending = q :: rest) : step s = serve q rest s := by
  unfold step
  rw [hf, hp]

@[simp] theorem stepTimes_zero (s : State) : stepTimes 0 s = .next s := rfl

theorem stepTimes_succ_next {n : Nat} {s t : State} :
    stepTimes (n + 1) s = .next t ↔ ∃ u, step s = .next u ∧ stepTimes n u = .next t := by
  rw [stepTimes]
  cases step s <;> simp

/-- The end of a run is reached after one step for each request, and it is a normal end (R150). -/
theorem endOfRun_eq_some {s t : State} :
    s.endOfRun = some t ↔ stepTimes s.pending.length s = .next t ∧ t.endsNormally := by
  unfold State.endOfRun
  cases stepTimes s.pending.length s with
  | next u =>
    simp only [Option.ite_none_right_eq_some, Host.Outcome.next.injEq, Option.some.injEq]
    constructor
    · rintro ⟨h, rfl⟩; exact ⟨rfl, h⟩
    · rintro ⟨rfl, h⟩; exact ⟨h, rfl⟩
  | fault => simp
  | refused => simp

/-- A request that is issued fits the ports, and it waits behind the others. -/
theorem State.issue_eq_some {s t : State} {q : Request} :
    s.issue q = some t ↔
      q.fits s.addrW s.tickW = true ∧ t = { s with pending := s.pending ++ [q] } := by
  unfold State.issue
  split <;> simp [*, eq_comm]

/-! ### The platform -/

@[simp] theorem Platform.book_devices (p : Platform) (o : Order) (rest : List Order)
    (ds : List State) (ms : List Msg) : (p.book o rest ds ms).devices = ds := rfl
@[simp] theorem Platform.book_orders (p : Platform) (o : Order) (rest : List Order)
    (ds : List State) (ms : List Msg) : (p.book o rest ds ms).orders = rest := rfl
@[simp] theorem Platform.book_served (p : Platform) (o : Order) (rest : List Order)
    (ds : List State) (ms : List Msg) : (p.book o rest ds ms).served = p.served ++ [⟨o, ms⟩] := rfl
@[simp] theorem Platform.book_messages (p : Platform) (o : Order) (rest : List Order)
    (ds : List State) (ms : List Msg) : (p.book o rest ds ms).messages = p.messages ++ ms := by
  simp [Platform.messages]

/-- Everything a step of the platform that completes does: nothing without an order; else it takes the
oldest one, and moves the device it names by one step. -/
theorem Platform.step_next {p q : Platform} (h : p.step = .next q) :
    (p.orders = [] ∧ q = p) ∨
    ∃ o rest, p.orders = o :: rest ∧
      ((p.devices[o.device]? = none ∧ q = p.book o rest p.devices []) ∨
       ∃ s t, p.devices[o.device]? = some s ∧ Machine.step (s.ask o.request) = .next t ∧
        q = p.book o rest (p.devices.set o.device t) t.events) := by
  unfold Platform.step at h
  split at h
  · cases h; exact .inl ⟨‹_›, rfl⟩
  · refine .inr ⟨_, _, ‹_›, ?_⟩
    split at h
    · cases h; exact .inl ⟨‹_›, rfl⟩
    · split at h <;> cases h
      exact .inr ⟨_, _, ‹_›, ‹_›, rfl⟩

@[simp] theorem Platform.steps_zero (p : Platform) : p.steps 0 = .next p := rfl

theorem Platform.steps_succ_next {n : Nat} {p q : Platform} :
    p.steps (n + 1) = .next q ↔ ∃ r, p.step = .next r ∧ r.steps n = .next q := by
  rw [Platform.steps]
  cases p.step <;> simp

end Sys2Proof.Machine
end

