-- ==== Sys2Proof/Tests/Slice0.lean ====
section
/-! SUPPORT. The model's own tests: ill-formed terms, words written out from the spec, single steps with
the spec's expected results (spec/95_test_vectors.md), and a witness for every statement that has
hypotheses. -/

namespace Sys2Proof.Tests

open Sys2Proof.Machine

/-! ### Helpers -/

/-- The outcome is a next state that meets `p`. -/
def answers (o : Host.Outcome State Fault Refusal) (p : State → Bool) : Bool :=
  match o with
  | .next t => p t
  | _ => false

/-- The outcome is the fault `f`. -/
def faults (o : Host.Outcome State Fault Refusal) (f : Fault) : Bool :=
  match o with
  | .fault g => f == g
  | _ => false

/-- An outcome that is computed to be a next state is one. -/
theorem completes {o : Host.Outcome State Fault Refusal} (h : answers o (fun _ => true) = true) :
    ∃ t, o = .next t := by
  cases o with
  | next t => exact ⟨t, rfl⟩
  | fault => exact nomatch h
  | refused => exact nomatch h

/-- The state after construction with one request issued. -/
def asking (q : Request) : State := { State.reset with pending := [q] }

/-- A small device at slot 2 with a byte in each buffer. -/
def device : State :=
  { State.reset with
    slot := .slot2, cnt := 100, setupReg := 0x80, live := [(0x10, 0xAB)], exposed := [(0x10, 0x11)] }

/-- The construction arguments `(slot, 0, 0, 1)` with the parameters of the test vectors. -/
def arguments (slot : Nat) : ConstructArgs :=
  { slot := slot, cfgBlink := false, cfgUserFont := false, cfgVsyncEn := true }

/-- `device` under the policy PerCrossing. -/
def perCrossing : State := { device with firePolicy := .perCrossing }

/-! ### Ill-formed operations are refused by the check (R63) -/

theorem illformed_vramRd : (Instr.vramRd 0x4400).wellFormed = false := by decide
theorem illformed_busRdNowin_vram : (Instr.busRdNowin 0x43FF).wellFormed = false := by decide
theorem illformed_busRdNowin_setup : (Instr.busRdNowin 0xCC00).wellFormed = false := by decide
theorem illformed_vramWr : (Instr.vramWr 0x4400 0).wellFormed = false := by decide
theorem illformed_busWrNowin_vram : (Instr.busWrNowin 0 0).wellFormed = false := by decide
theorem illformed_busWrNowin_setup : (Instr.busWrNowin 0xCC00 0).wellFormed = false := by decide
theorem illformed_exposedRdb : (Instr.exposedRdb 0x4400).wellFormed = false := by decide
theorem illformed_exposedRdbNowin : (Instr.exposedRdbNowin 0x43FF).wellFormed = false := by decide

/-! ### Every constructor's word, written from R59, R62 and R63 (V-E1 to V-E15, R76) -/

theorem word_vramRd : decode ⟨0x0000043FF#36, {}⟩ = .ok (.vramRd 0x43FF) := by rfl
theorem word_setupRd : decode ⟨0x00000CC00#36, {}⟩ = .ok .setupRd := by rfl
theorem word_busRdNowin : decode ⟨0x0FFFFFFFF#36, {}⟩ = .ok (.busRdNowin 0xFFFFFFFF) := by rfl
theorem word_vramWr : decode ⟨0x100004000#36, { data := 1 }⟩ = .ok (.vramWr 0x4000 1) := by rfl
theorem word_setupWr : decode ⟨0x10000CC00#36, { data := 6 }⟩ = .ok (.setupWr 6) := by rfl
theorem word_busWrNowin : decode ⟨0x10000CC01#36, {}⟩ = .ok (.busWrNowin 0xCC01 0) := by rfl
theorem word_tick :
    decode ⟨0x200000000#36, { clockHz := 360000, n := some 14400 }⟩ = .ok (.tick 360000 14400) := by
  rfl
theorem word_tick_default : decode ⟨0x200000000#36, { clockHz := 360000 }⟩ = .ok (.tick 360000 1) := by
  rfl
theorem word_configWr :
    decode ⟨0x300000000#36, { blink := true, vsyncEn := true }⟩ = .ok (.configWr true false true) := by
  rfl
theorem word_exposedRd : decode ⟨0x400000000#36, {}⟩ = .ok .exposedRd := by rfl
theorem word_exposedRdb : decode ⟨0x5000043FF#36, {}⟩ = .ok (.exposedRdb 0x43FF) := by rfl
theorem word_exposedRdbNowin : decode ⟨0x500004400#36, {}⟩ = .ok (.exposedRdbNowin 0x4400) := by rfl
theorem word_modeRd : decode ⟨0x600000000#36, {}⟩ = .ok .modeRd := by rfl
theorem word_textRd : decode ⟨0x712345678#36, {}⟩ = .ok .textRd := by rfl
theorem word_blinkRd : decode ⟨0x800000000#36, {}⟩ = .ok .blinkRd := by rfl
theorem word_userfontRd : decode ⟨0x900000000#36, {}⟩ = .ok .userfontRd := by rfl
theorem word_identRd : decode ⟨0xA00000000#36, {}⟩ = .ok .identRd := by rfl
theorem word_regionsRd : decode ⟨0xB00000000#36, {}⟩ = .ok .regionsRd := by rfl
theorem word_reserved : decode ⟨0xF12345678#36, {}⟩ = .error .reservedOpcode := by rfl

/-- R76: `WR8 0xFF0ACC00, 0x06` at slot 0 encodes as key `0x10000CC00` with data 0x06. -/
theorem written_wr8 : (Line.wr8 0xFF0ACC00 0x06).request.encoded .slot0 =
    ⟨0x10000CC00#36, { data := 0x06 }⟩ := by decide

/-- V-E8: slot 0's window seen from slot 1 is offset 0xFFFF0000. -/
theorem written_rd8_other_slot : ((Line.rd8 0xFF0A0000).request.encoded .slot1).key =
    0x0FFFF0000#36 := by decide

/-- No key selects two rows: the rows of the table do not overlap where a row is chosen (R64). -/
theorem rows_of_setup_key : selectedRows 0x10000CC00#36 =
    [⟨"SETUP_WR", 0x10000CC00#36, 0xFFFFFFFFF#36, false⟩] := by decide

/-! ### Single operations, against the spec's vectors -/

/-- V-B1. -/
theorem test_vramWr : answers (exec (.vramWr 0x10 0xAB) { device with live := [] }) fun t =>
    t.live == [(0x10, 0xAB)] && t.exposed == device.exposed && t.resp == some .ok := by decide
/-- Writing the fill byte takes the cell out. -/
theorem test_vramWr_zero : answers (exec (.vramWr 0x10 0) device) fun t => t.live == [] := by decide
/-- V-B1. -/
theorem test_vramRd : answers (exec (.vramRd 0x10) device) fun t =>
    t.resp == some (.byte 0xAB) && t.live == device.live := by decide
/-- V-S12, V-S13: the stored byte, not the mode. -/
theorem test_setupRd : answers (exec .setupRd device) fun t => t.resp == some (.byte 0x80) := by
  decide
/-- V-S10. -/
theorem test_setupWr_FB : answers (exec (.setupWr 0xFB) device) fun t =>
    t.setupReg == 0xFB && t.videoMode == 3 && t.isTextMode && t.cnt == 100 := by decide
/-- V-S7. -/
theorem test_setupWr_06 : answers (exec (.setupWr 0x06) device) fun t =>
    t.setupReg == 0x06 && t.videoMode == 2 && !t.isTextMode := by decide
/-- V-B5. -/
theorem test_busRdNowin : answers (exec (.busRdNowin 0xFFFFFFFF) State.reset) fun t =>
    t.resp == some (.addressingError ⟨1, 0xFF09FFFF, .read, none⟩) := by decide
/-- V-B4. -/
theorem test_busWrNowin : answers (exec (.busWrNowin 0x4400 0x55) State.reset) fun t =>
    t.resp == some (.addressingError ⟨1, 0xFF0A4400, .write, none⟩) && t.live == [] := by decide
/-- V-T6a, at slot 2 from `cnt = 100`. -/
theorem test_tick_single : answers (exec (.tick 360000 30000) device) fun t =>
    t.cnt == 15700 && t.exposed == [(0x10, 0xAB)] && t.events == [0x205A] := by decide
/-- V-T6b, at slot 2 from `cnt = 100`. -/
theorem test_tick_per_crossing : answers (exec (.tick 360000 30000) perCrossing) fun t =>
    t.cnt == 1300 && t.exposed == [(0x10, 0xAB)] && t.events == [0x205A, 0x205A] := by decide
/-- V-T12. -/
theorem test_tick_zero_threshold : faults (exec (.tick 24 1) device) .zeroThreshold := by decide
/-- V-T16. -/
theorem test_tick_overflow :
    faults (exec (.tick 360000 0x20) { device with cnt := 0xFFFFFFF0 }) .counterOverflow := by decide
/-- V-H1. -/
theorem test_configWr : answers (exec (.configWr true false true) State.reset) fun t =>
    t.blinkAttribute && !t.userFont && t.vsyncEn := by decide
/-- R107. -/
theorem test_exposedRd : answers (exec .exposedRd device) fun t =>
    t.resp == some (.buffer [(0x10, 0x11)]) := by decide
/-- R108. -/
theorem test_exposedRdb : answers (exec (.exposedRdb 0x10) device) fun t =>
    t.resp == some (.byte 0x11) := by decide
/-- V-H8. -/
theorem test_exposedRdbNowin : answers (exec (.exposedRdbNowin 0x4400) device) fun t =>
    t.resp == some (.addressingError ⟨1, 0x4400, .exposedRead, none⟩) := by decide
/-- V-H2. -/
theorem test_modeRd : answers (exec .modeRd State.reset) fun t => t.resp == some (.mode 0) := by decide
/-- V-H2. -/
theorem test_textRd : answers (exec .textRd State.reset) fun t => t.resp == some (.flag true) := by
  decide
/-- V-H9. -/
theorem test_blinkRd : answers (exec .blinkRd { device with blinkAttribute := true }) fun t =>
    t.resp == some (.flag true) := by decide
/-- V-H9. -/
theorem test_userfontRd : answers (exec .userfontRd { device with userFont := true }) fun t =>
    t.resp == some (.flag true) := by decide
/-- V-H3. -/
theorem test_identRd : answers (exec .identRd device) fun t =>
    t.resp == some (.ident ⟨0x0E, 0x0000, 0x0001, 0x0000⟩) := by decide
/-- R110, the example at slot 2. -/
theorem test_regionsRd : answers (exec .regionsRd device) fun t =>
    t.resp == some (.regions [⟨0xFF0C0000, 0x4400⟩, ⟨0xFF0CCC00, 1⟩]) := by decide

/-! ### Single steps -/

/-- V-X1. -/
theorem test_step_reserved : answers (step (asking { opc := 0xC })) fun t =>
    t.refused && t.fault == none && t.live == [] && t.resp == none := by decide
/-- V-X2. -/
theorem test_step_wide : answers (step (asking { opc := 0x0, addr := 0xFF0A0000, width := 2 }))
    fun t => t.refused && t.history.map (·.refusal) == [some .wideAccess] := by decide
/-- V-X3. -/
theorem test_step_fault : answers (step (asking (Line.tick 10 (some 1)).request)) fun t =>
    t.fault == some .zeroThreshold && t.cnt == 0 := by decide
/-- V-B10. -/
theorem test_step_direct :
    answers (step (asking { opc := 0x0, addr := 0xFF0A0000, region := some .setup })) fun t =>
      t.resp == some (.addressingError ⟨1, 0xFF0A0000, .read, some .setup⟩) := by decide
/-- The host's word for the row MODE_RD. -/
theorem test_fetch_word : answers (step (State.reset.withFetchWord 40 0x600000000)) fun t =>
    t.resp == some (.mode 0) && t.pending == [] := by decide
/-- V-R1. -/
theorem test_construct : answers (construct (arguments 0)) fun t => t == State.reset := by decide

/-- V-R2. -/
theorem test_construct_refused : construct (arguments 4) = .refused .invalidSlot := rfl

/-! ### Witnesses: each statement's hypotheses can be met -/

theorem witness_WellFormedOperationsDecodeFromTheirWords :
    (Instr.vramRd 0x43FF).wellFormed = true ∧ (Instr.busRdNowin 0x4400).wellFormed = true ∧
    (Instr.vramWr 0 0xFF).wellFormed = true ∧ (Instr.busWrNowin 0xCC01 1).wellFormed = true ∧
    (Instr.exposedRdb 0x43FF).wellFormed = true ∧
    (Instr.exposedRdbNowin 0xFFFFFFFF).wellFormed = true := by decide

theorem witness_DecodedOperationsAreWellFormed :
    decode ⟨0x000004400#36, {}⟩ = .ok (.busRdNowin 0x4400) := by rfl

theorem witness_DecoderFollowsTheOpcodeTable :
    decode ⟨0xB00000000#36, {}⟩ = .ok .regionsRd ∧
    decode ⟨0xC00000000#36, {}⟩ = .error .reservedOpcode := ⟨rfl, rfl⟩

theorem witness_BusOffsetTellsTheWindow :
    inVram (busOffset .slot2 0xFF0C0000) = true ∧ inVram (busOffset .slot2 0xFF0C43FF) = true := by
  decide

theorem witness_StepPerformsTheDecodedOperation :
    (asking { opc := 0x0, addr := 0xFF0ACC00 }).fault = none ∧
    (asking { opc := 0x0, addr := 0xFF0ACC00 }).pending = [{ opc := 0x0, addr := 0xFF0ACC00 }] ∧
    decode (Request.encoded { opc := 0x0, addr := 0xFF0ACC00 } .slot0) = .ok .setupRd ∧
    (Request.isBus { opc := 0x0, addr := 0xFF0ACC00 } = true →
      (1 : Nat) = 1 ∧ (none : Option RegionId) = none) := ⟨rfl, rfl, rfl, by decide⟩

theorem witness_TableWordIsPerformedNext :
    decodeTableWord 40 0x600000000 = some .modeRd ∧
    ∃ t, exec .modeRd { State.reset with fault := none } = .next t := ⟨rfl, _, rfl⟩

theorem witness_FaultedDevicePerformsNothing :
    ({ State.reset with fault := some .counterOverflow } : State).fault = some .counterOverflow := rfl

theorem witness_DeviceWithoutRequestStays :
    State.reset.fault = none ∧ State.reset.pending = [] := ⟨rfl, rfl⟩

theorem witness_ReservedCodeIsRefused :
    (asking { opc := 0xC, width := 4 }).fault = none ∧
    (asking { opc := 0xC, width := 4 }).pending = [{ opc := 0xC, width := 4 }] ∧
    0xC ≤ (0xC#4).toNat ∧ 0xC ≤ (0xF#4).toNat := by decide

theorem witness_WideAccessIsRefused :
    (asking { opc := 0x1, width := 4 }).fault = none ∧
    (asking { opc := 0x1, width := 4 }).pending = [{ opc := 0x1, width := 4 }] ∧
    ((0x1#4 : Opc) = 0x0#4 ∨ (0x1#4 : Opc) = 0x1#4) ∧ (4 : Nat) ≠ 1 ∧ (0 : Nat) ≠ 1 := by decide

theorem witness_FaultingTickChangesNoDeviceState :
    (asking (Line.tick 24 none).request).fault = none ∧
    (asking (Line.tick 24 none).request).pending = [(Line.tick 24 none).request] ∧
    decode ((Line.tick 24 none).request.encoded .slot0) = .ok (.tick 24 1) ∧
    exec (.tick 24 1) (asking (Line.tick 24 none).request) = .fault .zeroThreshold :=
  ⟨rfl, rfl, rfl, rfl⟩

theorem witness_TickFaultsExactlyAsListed :
    0 < device.refreshHz ∧ 24 < device.refreshHz ∧ device.refreshHz ≤ 25 ∧
    2 ^ device.cntW - 1 < 0xFFFFFFFF + 1 ∧
    0xFFFFFFFF + 0 ≤ 2 ^ device.cntW - 1 := by decide

theorem witness_RequestsAreServedInTheOrderIssued :
    (asking Line.mode.request).pending = [Line.mode.request] ∧
    ∃ u, (asking Line.mode.request).issue Line.text.request = some u ∧
      (∃ t, step u = .next t) ∧ ∃ t, u.endOfRun = some t :=
  ⟨rfl, _, rfl, ⟨_, rfl⟩, _, rfl⟩

/-- R9: a clock rate wider than the tick port cannot be issued. -/
theorem test_issue_too_wide :
    State.reset.issue (Line.tick (2 ^ 32) none).request = none := by decide

theorem witness_StepKeepsDataInForm :
    { device with pending := [(Line.wr8 0xFF0C0010 0).request] }.canonical ∧
    { device with pending := [(Line.wr8 0xFF0C0010 0).request] }.counterFits ∧
    { device with pending := [(Line.wr8 0xFF0C0010 0).request] }.requestsFit ∧
    ∃ t, step { device with pending := [(Line.wr8 0xFF0C0010 0).request] } = .next t :=
  ⟨by decide, by decide, by decide, _, rfl⟩

theorem witness_StepKeepsModeInAgreement :
    { device with pending := [(Line.wr8 0xFF0CCC00 7).request] }.modeAgrees ∧
    ∃ t, step { device with pending := [(Line.wr8 0xFF0CCC00 7).request] } = .next t :=
  ⟨by decide, _, rfl⟩

theorem witness_StepSignalsOnlyTheSlotsMessage :
    { device with pending := [(Line.tick 360000 (some 14400)).request] }.ownMessages ∧
    answers (step { device with pending := [(Line.tick 360000 (some 14400)).request] })
      (fun t => t.history.map (·.msgs) == [[0x205A]]) = true := by decide

theorem witness_HistoryIsOnlyAppendedAndMarksStay :
    { asking Line.mode.request with refused := true }.refused = true ∧
    ∃ t, step { asking Line.mode.request with refused := true } = .next t := ⟨rfl, _, rfl⟩

theorem witness_SlotAndParametersAreFixed : ∃ t, step (asking Line.mode.request) = .next t := ⟨_, rfl⟩

theorem witness_ModeAxisAndTimingAxisAreIndependent :
    answers (exec (.setupWr 7) device) (fun t => t.videoMode != device.videoMode) = true ∧
    answers (exec (.setupWr 4) device) (fun t => t.isTextMode != device.isTextMode) = true ∧
    answers (exec (.tick 360000 1) device) (fun t => t.cnt != device.cnt) = true ∧
    answers (exec (.tick 360000 14300) device)
      (fun t => t.exposed != device.exposed && t.events != []) = true := by decide

theorem witness_OnlyVramWritesChangeTheLiveBuffer : device.canonical ∧
    answers (exec (.vramWr 0x43FF 1) device)
      (fun t => t.live.read 0x43FF != device.live.read 0x43FF) = true := by decide

theorem witness_OnlyConfigWritesChangeTheConfigurationFlags :
    answers (exec (.configWr true true false) device)
      (fun t => t.blinkAttribute != device.blinkAttribute && t.userFont != device.userFont &&
        t.vsyncEn != device.vsyncEn) = true := by decide

theorem witness_ExposedBufferIsNeverPartlyCopied :
    answers (step { device with pending := [(Line.tick 360000 (some 14300)).request] })
      (fun t => t.exposed == device.live && t.exposed != device.exposed) = true := by decide

theorem witness_ReadersCompleteAndChangeNothing :
    isReader (.vramRd 0x43FF) = true ∧ isReader .regionsRd = true := ⟨rfl, rfl⟩

theorem witness_BusAccessesMeetTheDispatcher :
    (Line.rd8 0xFF0A0000).request.width = 1 ∧ (Line.rd8 0xFF0A0000).request.region = none ∧
    (Line.rd8 0xFF0A0000).request.opc = 0x0#4 ∧
    (Line.wr8 0xFF0ACC00 7).request.width = 1 ∧ (Line.wr8 0xFF0ACC00 7).request.region = none ∧
    (Line.wr8 0xFF0ACC00 7).request.opc = 0x1#4 := by decide

theorem witness_AccessOutsideTheWindowsIsAnAddressingError :
    0x4400 ≤ (0x4400#32).toNat ∧ (0x4400#32).toNat ≠ 0xCC00 ∧
    0x4400 ≤ (0xCC01#32).toNat ∧ (0xCC01#32).toNat ≠ 0xCC00 ∧
    0x4400 ≤ (0xFFFFFFFF#32).toNat ∧ (0xFFFFFFFF#32).toNat ≠ 0xCC00 := by decide

theorem witness_DirectRegionCallsAnswerForTheirOwnWindow :
    Request.width { opc := 0x0, addr := 0xFF0A0000, region := some .setup } = 1 ∧
    Request.region { opc := 0x0, addr := 0xFF0A0000, region := some .setup } = some .setup ∧
    Request.width { opc := 0x1, addr := 0xFF0A43FF, region := some .vram } = 1 ∧
    Request.region { opc := 0x1, addr := 0xFF0A43FF, region := some .vram } = some .vram := by decide

theorem witness_VramReadReturnsTheLiveByte :
    (0xFF0C0000#32 - base device.slot).toNat < 0x4400 ∧
    (0xFF0C43FF#32 - base device.slot).toNat < 0x4400 ∧ (1#32).toNat < 0x4400 ∧
    { arguments 2 with vramInit := [7, 9] }.vramInit[(1#32).toNat]? = some 9 ∧
    (∀ w, Instr.vramWr 1 w ∉ [Instr.vramWr 0 1, .setupWr 2]) ∧
    ∃ r, runOps [.vramWr 0 1, .setupWr 2]
      (constructed { arguments 2 with vramInit := [7, 9] } .slot2) = some r :=
  ⟨by decide, by decide, by decide, rfl, by simp, _, rfl⟩

theorem witness_SetupReadReturnsTheStoredByte :
    (∀ w, Instr.setupWr w ∉ [Instr.vramWr 0 1, .modeRd]) ∧
    ∃ r, runOps [.vramWr 0 1, .modeRd] (constructed (arguments 2) .slot2) = some r :=
  ⟨by simp, _, rfl⟩

theorem witness_VramWriteStoresOneLiveByte :
    (0x43FF#32).toNat < 0x4400 ∧ device.canonical ∧ device.live.read (0x43FF#32).toNat = 0 ∧
    (0 : Nat) ≠ (window device.slot .vram).offset (busAddress device.slot 0x43FF) := by decide

theorem witness_SetupWriteStoresTheByteAndSetsTheMode :
    answers (exec (.setupWr 7) device) (fun t => t.videoMode != device.videoMode) = true ∧
    answers (exec (.setupWr 4) device) (fun t => t.isTextMode != device.isTextMode) = true := by
  decide

theorem witness_SetupByteDecodesAsTabled :
    (0xF8#8).extractLsb' 0 3 = 0b000#3 ∧ (0x01#8).extractLsb' 0 3 = 0b001#3 ∧
    (0x02#8).extractLsb' 0 3 = 0b010#3 ∧ (0xFB#8).extractLsb' 0 3 = 0b011#3 ∧
    (0x04#8).extractLsb' 0 3 = 0b100#3 ∧ (0x05#8).extractLsb' 0 3 = 0b101#3 ∧
    (0x06#8).extractLsb' 0 3 = 0b110#3 ∧ (0xFF#8).extractLsb' 0 3 = 0b111#3 := by decide

theorem witness_BusFamilyPropertiesOfTheSource :
    device.canonical ∧ 0x43FF < 0x4400 ∧
    0xFF0BFFFF#32 = (window device.slot .vram).begin - 1 ∧
    0xFF0CCC01#32 = (window device.slot .setup).begin +
      BitVec.ofNat 32 (window device.slot .setup).size ∧
    (some RegionId.setup = none ∨ some RegionId.setup = some .setup) ∧
    (∀ w, Instr.vramWr (BitVec.ofNat 32 0x43FF) w ∉ [Instr.vramWr 0 1, .tick 360000 1]) ∧
    ∃ t, perform { opc := 0x1, addr := 0xFF0C43FF, side := { data := 5 } } device = .next t ∧
      ∃ r, runOps [.vramWr 0 1, .tick 360000 1] t = some r :=
  ⟨by decide, by decide, by decide, by decide, by decide, by simp, _, rfl, _, rfl⟩

theorem witness_WritingTheSameByteAgainChangesNothing : device.canonical ∧
    (∃ t, exec (.vramWr 0x43FF 9) device = .next t) ∧ ∃ t, exec (.setupWr 7) device = .next t :=
  ⟨by decide, ⟨_, rfl⟩, _, rfl⟩

theorem witness_ReadReturnsTheLatestWrite :
    device.canonical ∧ (0x43FF#32).toNat < 0x4400 ∧
    (∀ w, Instr.vramWr 0x43FF w ∉ [Instr.vramWr 0 1, .setupWr 2]) ∧
    (∃ r, runOps (.vramWr 0x43FF 9 :: [.vramWr 0 1, .setupWr 2] ++ [.vramRd 0x43FF]) device = some r) ∧
    (∀ w, Instr.setupWr w ∉ [Instr.vramWr 0 1]) ∧
    ∃ r, runOps (.setupWr 9 :: [.vramWr 0 1] ++ [.setupRd]) device = some r :=
  ⟨by decide, by decide, by simp, ⟨_, rfl⟩, by simp, _, rfl⟩

theorem witness_WindowsOfDifferentSlotsAreDisjoint :
    (Slot.slot0, RegionId.vram) ≠ (Slot.slot0, RegionId.setup) ∧
    (Slot.slot0, RegionId.vram) ≠ (Slot.slot1, RegionId.vram) ∧
    (window .slot0 .vram).contains 0xFF0A43FF = true := by decide

theorem witness_TickUnderSingleFire :
    device.firePolicy = .singleFire ∧ 0 < device.refreshHz ∧
    device.refreshHz ≤ 360000 ∧
    device.cnt + 14300 ≤ 2 ^ device.cntW - 1 ∧
    threshold device.refreshHz 360000 ≤ device.cnt + 14300 ∧
    ¬ threshold device.refreshHz 360000 ≤ device.cnt + 14299 := by decide

theorem witness_TickUnderPerCrossing :
    perCrossing.firePolicy = .perCrossing ∧ 0 < perCrossing.refreshHz ∧
    perCrossing.refreshHz ≤ 25 ∧
    perCrossing.cnt + 30000 ≤ 2 ^ perCrossing.cntW - 1 := by decide

theorem witness_CrossingTickCopiesTheWholeLiveBuffer :
    (∃ t, exec (.tick 360000 14300) device = .next t) ∧
    threshold device.refreshHz 360000 ≤ device.cnt + 14300 ∧
    (∃ t, exec (.tick 360000 14299) device = .next t) ∧
    device.cnt + 14299 < threshold device.refreshHz 360000 ∧
    answers (exec (.tick 360000 14300) device) (fun t => t.exposed != device.exposed) = true :=
  ⟨completes (by decide), by decide, completes (by decide), by decide, by decide⟩

theorem witness_VsyncEnableGatesOnlyTheMessages :
    device.vsyncEn = true ∧ ∃ t, exec (.tick 360000 14300) device = .next t :=
  ⟨rfl, completes (by decide)⟩

theorem witness_UsagePremiseRulesOutOverflow :
    device.rateFits 0xFFFFFFFF ∧
    device.cnt < threshold device.refreshHz 0xFFFFFFFF ∧
    171798691 ≤ threshold device.refreshHz 0xFFFFFFFF := by decide

theorem witness_ResidueCrossesAgainWithNoCycles :
    device.firePolicy = .singleFire ∧
    2 * threshold device.refreshHz 360000 ≤ device.cnt + 30000 ∧
    ∃ t, exec (.tick 360000 30000) device = .next t :=
  ⟨rfl, by decide, completes (by decide)⟩

theorem witness_TicksAddUpUnderPerCrossing :
    perCrossing.firePolicy = .perCrossing ∧ 0 < perCrossing.refreshHz ∧
    perCrossing.refreshHz ≤ 360000 ∧
    [10000, 10000, 10000] ≠ [] ∧
    totalCycles [10000, 10000, 10000] = 30000 ∧
    perCrossing.cnt + 30000 ≤ 2 ^ perCrossing.cntW - 1 := by decide

theorem witness_ShortTicksAddUpUnderSingleFire :
    device.firePolicy = .singleFire ∧ device.rateFits 360000 ∧
    device.cnt < threshold device.refreshHz 360000 ∧
    ∀ n ∈ [14400, 0, 14400], n ≤ threshold device.refreshHz 360000 :=
  ⟨rfl, by decide, by decide,
    by simp [threshold, device, State.reset, Config.refreshHzDefault]⟩

theorem witness_LongTickBreaksAdditivityUnderSingleFire :
    State.reset.firePolicy = .singleFire ∧ State.reset.vsyncEn = true ∧ State.reset.cnt = 0 ∧
    State.reset.rateFits 360000 ∧ State.reset.refreshHz ≤ 360000 ∧
    14400 = threshold State.reset.refreshHz 360000 ∧
    28800 = 2 * threshold State.reset.refreshHz 360000 := by decide

theorem witness_WrittenByteIsExposedAtTheFirstCrossing :
    device.canonical ∧ (0x43FF#32).toNat < 0x4400 ∧ device.rateFits 360000 ∧
    device.cnt < threshold device.refreshHz 360000 ∧
    (∀ n ∈ 300 :: [14000, 299], n ≤ threshold device.refreshHz 360000) ∧
    totalCycles [14000, 299] < threshold device.refreshHz 360000 - device.cnt ∧
    threshold device.refreshHz 360000 - device.cnt ≤ totalCycles [14000, 299] + 300 :=
  ⟨by decide, by decide, by decide, by decide,
    by simp [threshold, device, State.reset, Config.refreshHzDefault], by decide,
    by decide⟩

theorem witness_ExposedReadReturnsTheWholeSnapshot :
    ∃ t, runWithoutCrossing [.vramWr 0 1, .tick 360000 14399] (constructed (arguments 2) .slot2) =
      some t := ⟨_, rfl⟩

theorem witness_ExposedByteReadAnswersItsByteOrAnError :
    (0x43FF#32).toNat < 0x4400 ∧ 0x4400 ≤ (0x4400#32).toNat := by decide

theorem witness_ConstructionSetsEveryField :
    slotOf (arguments 3).slot = some .slot3 ∧ (arguments 3).allocated = true ∧
    ({ arguments 3 with vramInit := List.replicate 0x4400 0xFF#8 }).legal :=
  ⟨rfl, rfl, by decide, by decide, List.length_replicate⟩

theorem witness_ConstructionRefusesAnInvalidSlot :
    3 < (arguments 4).slot ∧
    { arguments 3 with allocated := false }.slot ≤ 3 ∧
    { arguments 3 with allocated := false }.allocated = false := by decide

/-- Two devices with a crossing TICK issued to the second, then to the first. -/
def twoTicks : Platform where
  devices := [State.reset, device]
  orders := [⟨1, (Line.tick 360000 (some 14300)).request⟩, ⟨0, (Line.tick 360000 (some 14400)).request⟩]
  served := []

/-- R122: the messages come in the host's order. -/
theorem test_platform_order : (match twoTicks.steps 2 with
    | .next q => q.messages == [0x205A, 0x5A] && q.orders == []
    | _ => false) = true := by decide

theorem witness_DevicesDoNotInteractAndMessagesFollowTheHostsOrder :
    twoTicks.slotsUnique ∧ (∃ q, twoTicks.step = .next q) ∧ (∃ q, twoTicks.steps 2 = .next q) ∧
    (window device.slot .setup).contains 0xFF0CCC00 = true ∧ (1 : Nat) ≠ 0 ∧
    twoTicks.devices[1]? = some device ∧ twoTicks.devices[0]? = some State.reset ∧
    device.fault = none ∧ State.reset.fault = none ∧
    twoTicks.orders = [⟨1, (Line.tick 360000 (some 14300)).request⟩,
      ⟨0, (Line.tick 360000 (some 14400)).request⟩] ∧
    (∃ t, exec (.tick 360000 14300) device = .next t) ∧
    ∃ t, exec (.tick 360000 14400) State.reset = .next t :=
  ⟨by decide, ⟨_, rfl⟩, ⟨_, rfl⟩, by decide, by decide, rfl, rfl, rfl, rfl, rfl, completes (by decide),
    completes (by decide)⟩

end Sys2Proof.Tests
end

section
/-! PROOFS. The scope of the model (00_scope.md): what a step performs and books, the order of service,
and what every step keeps. First the shared rules, then the statements. -/

namespace Sys2Proof.Machine

/-! ### What a performed request keeps -/

/-- To show a property of the state that a completed request leaves, show it of each effect a request
can have: an answer, a stored live byte, a stored setup byte, a TICK, the configuration flags. -/
theorem perform_induct {P : State → Prop} {q : Request} {s t : State} (h : perform q s = .next t)
    (answer : ∀ a, P (s.answer a []))
    (storeLive : ∀ k v, k < vramSize → P ((s.storeLive k v).answer .ok []))
    (storeSetup : ∀ v, P (((s.storeSetup v).modeUpdate v).answer .ok []))
    (tick : ∀ c k T, c ≤ cntMax s.cntW → P ((s.snapshot c k T).answer .ok (s.vsyncMsgs k)))
    (setFlags : ∀ b u e, P ((s.setFlags b u e).answer .ok [])) : P t := by
  rcases perform_effect h with ⟨a, rfl⟩ | ⟨k, v, hk, rfl⟩ | ⟨v, rfl⟩ | ⟨f, n, ht⟩ | ⟨b, u, e, rfl⟩
  · exact answer a
  · exact storeLive k v hk
  · exact storeSetup v
  · obtain ⟨-, hc, rfl⟩ := execTick_next.1 ht
    exact tick _ _ _ hc
  · exact setFlags b u e

/-- A request that completes is answered, and it touches neither the host's list nor the history nor
the mark of a refusal. -/
theorem perform_next_books {q : Request} {s t : State} (h : perform q s = .next t) :
    t.pending = s.pending ∧ t.history = s.history ∧ t.refused = s.refused ∧ t.resp ≠ none :=
  perform_induct (P := fun t =>
      t.pending = s.pending ∧ t.history = s.history ∧ t.refused = s.refused ∧ t.resp ≠ none) h
    (fun _ => ⟨rfl, rfl, rfl, nofun⟩) (fun _ _ _ => ⟨rfl, rfl, rfl, nofun⟩)
    (fun _ => ⟨rfl, rfl, rfl, nofun⟩) (fun _ _ _ _ => ⟨rfl, rfl, rfl, nofun⟩)
    (fun _ _ _ => ⟨rfl, rfl, rfl, nofun⟩)

/-- The slot and the parameters that construction fixes (R9, R18) are the same in `t` as in `s`. -/
def State.sameParameters (s t : State) : Prop :=
  t.slot = s.slot ∧ t.firePolicy = s.firePolicy ∧ t.refreshHz = s.refreshHz ∧ t.cntW = s.cntW ∧
    t.addrW = s.addrW ∧ t.tickW = s.tickW

theorem State.sameParameters_refl (s : State) : s.sameParameters s := ⟨rfl, rfl, rfl, rfl, rfl, rfl⟩

theorem perform_next_sameParameters {q : Request} {s u v : State} (h : perform q u = .next v)
    (hs : s.sameParameters u) : s.sameParameters v :=
  perform_induct h (fun _ => hs) (fun _ _ _ => hs) (fun _ => hs) (fun _ _ _ _ => hs)
    (fun _ _ _ => hs)

theorem perform_next_canonical {q : Request} {s t : State} (h : perform q s = .next t)
    (hs : s.canonical) : t.canonical := by
  obtain ⟨hl, hx⟩ := hs
  refine perform_induct h (fun _ => ⟨hl, hx⟩) (fun k v hk => ⟨Memory.wf_write hl hk, hx⟩)
    (fun _ => ⟨hl, hx⟩) (fun c k T _ => ⟨hl, ?_⟩) (fun _ _ _ => ⟨hl, hx⟩)
  -- a crossing copies the live buffer whole (R94)
  rw [State.answer_exposed, State.snapshot_exposed]
  split
  · exact hl
  · exact hx

theorem perform_next_counterFits {q : Request} {s t : State} (h : perform q s = .next t)
    (hs : s.counterFits) : t.counterFits := by
  refine perform_induct h (fun _ => hs) (fun _ _ _ => hs) (fun _ => hs) (fun c k T hc => ?_)
    (fun _ _ _ => hs)
  -- TICK checks the sum against `cntMax` before it takes the crossings off (R91, R97)
  calc residue c k T ≤ c := Nat.sub_le ..
    _ ≤ 2 ^ s.cntW - 1 := hc
    _ < 2 ^ s.cntW := Nat.sub_one_lt (Nat.two_pow_pos _).ne'

theorem perform_next_requestsFit {q : Request} {s t : State} (h : perform q s = .next t)
    (hs : s.requestsFit) : t.requestsFit := by
  obtain ⟨hpend, -⟩ := perform_next_books h
  obtain ⟨-, -, -, -, haddr, htick⟩ := perform_next_sameParameters h s.sameParameters_refl
  rwa [State.requestsFit, hpend, haddr, htick]

/-! ### What a step keeps -/

/-- A property of the state is kept by every step if it is kept by each part of one: taking the request
from the list, performing it, marking a stop, booking the entry. -/
theorem step_keeps {P : State → Prop} {s t : State} (h : step s = .next t) (hs : P s)
    (take : ∀ q rest, s.pending = q :: rest → P (s.take rest))
    (perform : ∀ q u v, perform q u = .next v → P u → P v)
    (latchFault : ∀ u f, P u → P (u.latchFault f))
    (latchRefusal : ∀ u, P u → P u.latchRefusal)
    (record : ∀ u e, P u → P (u.record e)) : P t := by
  obtain ⟨-, ⟨-, rfl⟩ | ⟨q, rest, hp, hstep⟩⟩ := step_next h
  · exact hs
  · have htake := take q rest hp
    rcases hstep with ⟨u, hu, rfl⟩ | ⟨f, -, rfl⟩ | ⟨r, -, rfl⟩
    · exact record _ _ (perform q _ u hu htake)
    · exact record _ _ (latchFault _ f htake)
    · exact record _ _ (latchRefusal _ htake)

/-- Settles O18: each of the three forms is kept by every part of a step. -/
theorem stepKeepsDataInForm : Obligations.StepKeepsDataInForm := by
  intro s t h
  refine ⟨fun hs => ?_, fun hs => ?_, fun hs => ?_⟩
  · exact step_keeps (P := State.canonical) h hs (fun _ _ _ => hs)
      (fun _ _ _ => perform_next_canonical) (fun _ _ => id) (fun _ => id) (fun _ _ => id)
  · exact step_keeps (P := State.counterFits) h hs (fun _ _ _ => hs)
      (fun _ _ _ => perform_next_counterFits) (fun _ _ => id) (fun _ => id) (fun _ _ => id)
  · refine step_keeps (P := State.requestsFit) h hs (fun q rest hp r hr => hs r ?_)
      (fun _ _ _ => perform_next_requestsFit) (fun _ _ => id) (fun _ => id) (fun _ _ => id)
    rw [hp]
    exact List.mem_cons_of_mem q hr

/-- Settles O23: no part of a step writes the slot or a parameter. -/
theorem slotAndParametersAreFixed : Obligations.SlotAndParametersAreFixed := by
  intro s t h
  exact step_keeps (P := s.sameParameters) h s.sameParameters_refl
    (fun _ _ _ => s.sameParameters_refl)
    (fun _ _ _ => perform_next_sameParameters) (fun _ _ => id) (fun _ => id) (fun _ _ => id)

/-- No step clears the mark of a refusal (R30, R118). -/
theorem step_next_refused {s t : State} (h : step s = .next t) (hs : s.refused = true) :
    t.refused = true := by
  refine step_keeps (P := (·.refused = true)) h hs (fun _ _ _ => hs) (fun q u v hv hu => ?_)
    (fun _ _ => id) (fun _ _ => rfl) (fun _ _ => id)
  obtain ⟨-, -, hrefused, -⟩ := perform_next_books hv
  exact hrefused.trans hu

/-! ### What a step performs -/

/-- A request that decodes, and on the bus asks the dispatcher for one byte, is its operation (R119). -/
theorem perform_eq_exec {q : Request} {s : State} {i : Instr}
    (hd : decode (q.encoded s.slot) = .ok i)
    (hb : q.isBus = true → q.width = 1 ∧ q.region = none) : perform q s = exec i s := by
  unfold perform
  rw [hd]
  cases hq : q.isBus with
  | false => rfl
  | true =>
    obtain ⟨hw, hr⟩ := hb hq
    simp [hw, hr]

/-- Settles O9: the step serves the request, and serving it is `exec` with the bookkeeping of each
outcome. -/
theorem stepPerformsTheDecodedOperation : Obligations.StepPerformsTheDecodedOperation := by
  intro s q rest i hf hp hd hb
  rw [step_of_pending hf hp, serve, perform_eq_exec (s := s.take rest) hd hb, State.take]
  cases exec i { s with pending := rest } with
  | next t => rfl
  | fault f => rfl
  | refused r => rfl

/-! ### The order of service and the end of a run -/

/-- The entry of a request that was answered and did not stop. -/
def Entry.completed (e : Entry) : Prop := e.fault = none ∧ e.refusal = none ∧ e.resp ≠ none

/-- A step with requests waiting takes the oldest and books it, as completed unless it leaves a mark. -/
theorem step_next_books {s t : State} {q : Request} {rest : List Request}
    (hp : s.pending = q :: rest) (h : step s = .next t) :
    t.pending = rest ∧ ∃ e, t.history = s.history ++ [e] ∧ e.request = q ∧
      (t.fault = none → t.refused = false → e.completed) := by
  obtain ⟨-, ⟨hnil, -⟩ | ⟨q', rest', hp', hstep⟩⟩ := step_next h
  · rw [hp] at hnil
    exact nomatch hnil
  · obtain ⟨rfl, rfl⟩ := List.cons.inj (hp.symm.trans hp')
    rcases hstep with ⟨u, hu, rfl⟩ | ⟨f, -, rfl⟩ | ⟨r, -, rfl⟩
    · obtain ⟨hpend, hhist, -, hresp⟩ := perform_next_books hu
      exact ⟨hpend, _, congrArg (· ++ [_]) hhist, rfl, fun _ _ => ⟨rfl, rfl, hresp⟩⟩
    · exact ⟨rfl, _, rfl, rfl, fun hf _ => nomatch hf⟩
    · exact ⟨rfl, _, rfl, rfl, fun _ hr => nomatch hr⟩

/-- A run that ends without a mark starts without one: no step clears `refused`, and a faulted device
makes no step. -/
theorem unmarked_of_stepTimes {n : Nat} {s t : State} (h : stepTimes n s = .next t)
    (hf : t.fault = none) (hr : t.refused = false) : s.fault = none ∧ s.refused = false := by
  induction n generalizing s with
  | zero =>
    cases h
    exact ⟨hf, hr⟩
  | succ n ih =>
    obtain ⟨u, hu, hrun⟩ := stepTimes_succ_next.1 h
    have hur : u.refused = false := (ih hrun).2
    refine ⟨(step_next hu).1, Bool.eq_false_of_not_eq_true fun hs => ?_⟩
    exact absurd (step_next_refused hu hs) (by simp [hur])

/-- A run over all waiting requests that ends without a mark books each of them, in order, as
completed. -/
theorem stepTimes_books {qs : List Request} {s t : State} (hp : s.pending = qs)
    (h : stepTimes qs.length s = .next t) (hf : t.fault = none) (hr : t.refused = false) :
    ∃ es : List Entry, t.history = s.history ++ es ∧ es.map (·.request) = qs ∧
      ∀ e ∈ es, e.completed := by
  induction qs generalizing s with
  | nil =>
    cases h
    exact ⟨[], by simp⟩
  | cons q qs ih =>
    obtain ⟨u, hu, hrun⟩ := stepTimes_succ_next.1 h
    obtain ⟨hpend, e, hhist, hreq, hcompleted⟩ := step_next_books hp hu
    obtain ⟨huf, hur⟩ := unmarked_of_stepTimes hrun hf hr
    obtain ⟨es, hes, hmap, hall⟩ := ih hpend hrun
    exact ⟨e :: es, by simp [hes, hhist], by simp [hreq, hmap],
      List.forall_mem_cons.2 ⟨hcompleted huf hur, hall⟩⟩

/-- Settles O17, the end of a run by induction on the requests waiting. -/
theorem requestsAreServedInTheOrderIssued : Obligations.RequestsAreServedInTheOrderIssued := by
  refine ⟨fun s t q new rest hp u hu h => ?_, fun s t hend => ?_, fun s q => ?_⟩
  · obtain ⟨-, rfl⟩ := State.issue_eq_some.1 hu
    have hpu : s.pending ++ [new] = q :: (rest ++ [new]) := by rw [hp, List.cons_append]
    obtain ⟨hpend, e, hhist, hreq, -⟩ := step_next_books hpu h
    exact ⟨hpend, e, hhist, hreq⟩
  · obtain ⟨hrun, hpend, hf, hr⟩ := endOfRun_eq_some.1 hend
    exact ⟨hpend, hf, hr, stepTimes_books rfl hrun hf hr⟩
  · simp [State.issue_eq_some]

/-! ### Tables and the threshold -/

/-- Settles O8, slot by slot. -/
theorem slotTablesFollowTheSlotNumber : Obligations.SlotTablesFollowTheSlotNumber := by
  intro slot
  cases slot with
  | slot0 => decide
  | slot1 => decide
  | slot2 => decide
  | slot3 => decide

/-- Settles O41: the threshold is a floor division (R90). -/
theorem thresholdIsTheClockRateOverTheRefreshRate :
    Obligations.ThresholdIsTheClockRateOverTheRefreshRate := by
  refine ⟨rfl, fun hz clockHz hpos => ⟨?_, ?_, threshold_eq_zero_iff hpos clockHz⟩⟩
  · exact Nat.div_mul_le_self clockHz hz
  · exact Nat.lt_mul_of_div_lt (Nat.lt_succ_self _) hpos

end Sys2Proof.Machine
end

section
/-! PROOFS. The state (10_state.md): what each operation can change, what every step keeps of the mode,
the history and the exposed buffer, and the state after construction. First the shared rules, then the
statements. -/

namespace Sys2Proof.Machine

/-! ### What one operation can change -/

/-- SETUP_WR completes in every state: it stores its byte and sets the mode (R87). -/
theorem exec_setupWr (v : Byte) (s : State) :
    exec (.setupWr v) s = .next (((s.storeSetup v).modeUpdate v).answer .ok []) := by
  have hw : exec (.setupWr v) s = writeByte .setup (busAddress s.slot setupOffset) v s := rfl
  rw [hw, writeByte_of_contains (setupWrite_contains s.slot), regionWrite]

/-- Only SETUP_WR moves the mode. -/
theorem exec_next_mode {i : Instr} {s t : State} (h : exec i s = .next t) :
    (∃ v, i = .setupWr v) ∨ (t.videoMode = s.videoMode ∧ t.isTextMode = s.isTextMode) := by
  rcases exec_next h with ⟨a, rfl⟩ | ⟨off, v, -, -, rfl⟩ | ⟨v, hi, -⟩ | ⟨f, n, -, ht⟩ | ⟨b, u, e, -, rfl⟩
  · exact .inr ⟨rfl, rfl⟩
  · exact .inr ⟨rfl, rfl⟩
  · exact .inl ⟨v, hi⟩
  · obtain ⟨-, -, rfl⟩ := execTick_next.1 ht
    exact .inr ⟨rfl, rfl⟩
  · exact .inr ⟨rfl, rfl⟩

/-- Only TICK moves the counter, writes the exposed buffer or signals. -/
theorem exec_next_timing {i : Instr} {s t : State} (h : exec i s = .next t) :
    (∃ f n, i = .tick f n ∧ execTick f n s = .next t) ∨
    (t.cnt = s.cnt ∧ t.exposed = s.exposed ∧ t.events = []) := by
  rcases exec_next h with ⟨a, rfl⟩ | ⟨off, v, -, -, rfl⟩ | ⟨v, -, rfl⟩ | ht | ⟨b, u, e, -, rfl⟩
  · exact .inr ⟨rfl, rfl, rfl⟩
  · exact .inr ⟨rfl, rfl, rfl⟩
  · exact .inr ⟨rfl, rfl, rfl⟩
  · exact .inl ht
  · exact .inr ⟨rfl, rfl, rfl⟩

/-- Only VRAM_WR writes the live buffer, at its own offset. -/
theorem exec_next_live {i : Instr} {s t : State} (h : exec i s = .next t) :
    (∃ off v, i = .vramWr off v ∧ inVram off = true ∧ t.live = s.live.write off.toNat v) ∨
    t.live = s.live := by
  rcases exec_next h with ⟨a, rfl⟩ | ⟨off, v, hi, hoff, rfl⟩ | ⟨v, -, rfl⟩ | ⟨f, n, -, ht⟩ |
    ⟨b, u, e, -, rfl⟩
  · exact .inr rfl
  · exact .inl ⟨off, v, hi, hoff, rfl⟩
  · exact .inr rfl
  · obtain ⟨-, -, rfl⟩ := execTick_next.1 ht
    exact .inr rfl
  · exact .inr rfl

/-- Only CONFIG_WR writes the three configuration flags. -/
theorem exec_next_flags {i : Instr} {s t : State} (h : exec i s = .next t) :
    (∃ b u e, i = .configWr b u e) ∨
    (t.blinkAttribute = s.blinkAttribute ∧ t.userFont = s.userFont ∧ t.vsyncEn = s.vsyncEn) := by
  rcases exec_next h with ⟨a, rfl⟩ | ⟨off, v, -, -, rfl⟩ | ⟨v, -, rfl⟩ | ⟨f, n, -, ht⟩ | ⟨b, u, e, hi, -⟩
  · exact .inr ⟨rfl, rfl, rfl⟩
  · exact .inr ⟨rfl, rfl, rfl⟩
  · exact .inr ⟨rfl, rfl, rfl⟩
  · obtain ⟨-, -, rfl⟩ := execTick_next.1 ht
    exact .inr ⟨rfl, rfl, rfl⟩
  · exact .inl ⟨b, u, e, hi⟩

/-- A TICK takes the threshold off the counter's sum for every crossing; it makes one exactly if the sum
reaches the threshold, it copies the live buffer if it makes one, and else it neither copies nor signals
(R91, R94, R96). -/
theorem execTick_crossings {f n : Nat} {s t : State} (h : execTick f n s = .next t) :
    ∃ k, (1 ≤ k ↔ threshold s.refreshHz f ≤ s.cnt + n) ∧
      t.cnt + k * threshold s.refreshHz f = s.cnt + n ∧
      (k = 0 → t.exposed = s.exposed ∧ t.events = []) ∧ (1 ≤ k → t.exposed = s.live) := by
  obtain ⟨hT, -, rfl⟩ := execTick_next.1 h
  refine ⟨crossings s.firePolicy (tickSum s.cnt n) (threshold s.refreshHz f), crossings_pos_iff hT,
    Nat.sub_add_cancel (crossings_mul_le ..), fun hk => ?_, fun hk => if_pos hk⟩
  simp [hk, State.vsyncMsgs]

/-! ### What a performed request and a step can do -/

/-- A request that completes signals nothing but the slot's own message. -/
theorem perform_next_events {q : Request} {s t : State} (h : perform q s = .next t) :
    ∀ m ∈ t.events, m = irqMsg s.slot :=
  perform_induct (P := fun t => ∀ m ∈ t.events, m = irqMsg s.slot) h
    (fun _ => nofun) (fun _ _ _ => nofun) (fun _ => nofun) (fun _ _ _ _ _ => mem_vsyncMsgs)
    (fun _ _ _ => nofun)

/-- A request that completes leaves the exposed buffer, or it is a TICK that copies the live one whole. -/
theorem perform_next_exposed {q : Request} {s t : State} (h : perform q s = .next t) :
    t.exposed = s.exposed ∨ t.exposed = s.live := by
  refine perform_induct (P := fun t => t.exposed = s.exposed ∨ t.exposed = s.live) h
    (fun _ => .inl rfl) (fun _ _ _ => .inl rfl) (fun _ => .inl rfl) (fun c k T _ => ?_)
    (fun _ _ _ => .inl rfl)
  rw [State.answer_exposed, State.snapshot_exposed]
  split
  · exact .inr rfl
  · exact .inl rfl

/-- The mode agrees with the stored byte after every completed request: SETUP_WR writes both, and nothing
else writes either. -/
theorem perform_next_modeAgrees {q : Request} {s t : State} (h : perform q s = .next t)
    (hs : s.modeAgrees) : t.modeAgrees :=
  perform_induct h (fun _ => hs) (fun _ _ _ => hs) (fun _ => ⟨rfl, rfl⟩) (fun _ _ _ _ => hs)
    (fun _ _ _ => hs)

/-- A step leaves the history, or appends one entry, whose messages are the slot's own (R30, R96). -/
theorem step_next_history {s t : State} (h : step s = .next t) :
    t.history = s.history ∨
    ∃ e, t.history = s.history ++ [e] ∧ ∀ m ∈ e.msgs, m = irqMsg s.slot := by
  obtain ⟨-, ⟨-, rfl⟩ | ⟨q, rest, -, hstep⟩⟩ := step_next h
  · exact .inl rfl
  · rcases hstep with ⟨u, hu, rfl⟩ | ⟨f, -, rfl⟩ | ⟨r, -, rfl⟩
    · obtain ⟨-, hhist, -⟩ := perform_next_books hu
      exact .inr ⟨_, congrArg (· ++ [_]) hhist, perform_next_events (s := s.take rest) hu⟩
    · exact .inr ⟨_, rfl, nofun⟩
    · exact .inr ⟨_, rfl, nofun⟩

/-! ### Invariants of the state -/

/-- Settles O19: only a stored setup byte moves the mode or the byte, and it sets both. -/
theorem stepKeepsModeInAgreement : Obligations.StepKeepsModeInAgreement := by
  intro s t hs h
  exact step_keeps (P := State.modeAgrees) h hs (fun _ _ _ => hs)
    (fun _ _ _ => perform_next_modeAgrees) (fun _ _ => id) (fun _ => id) (fun _ _ => id)

/-- Settles O20: the entry a step appends signals the slot's own message, and the slot stays. -/
theorem stepSignalsOnlyTheSlotsMessage : Obligations.StepSignalsOnlyTheSlotsMessage := by
  intro s t hs h
  obtain ⟨hslot, -⟩ := slotAndParametersAreFixed s t h
  rw [State.ownMessages, hslot]
  rcases step_next_history h with hhist | ⟨e, hhist, he⟩
  · rwa [hhist]
  · rw [hhist, List.forall_mem_append]
    exact ⟨hs, List.forall_mem_singleton.2 he⟩

/-- Settles O22: a step books at most one request, and no part of it clears the mark. -/
theorem historyIsOnlyAppendedAndMarksStay : Obligations.HistoryIsOnlyAppendedAndMarksStay := by
  intro s t h
  refine ⟨?_, step_next_refused h⟩
  rcases step_next_history h with hhist | ⟨e, hhist, -⟩
  · exact ⟨[], Nat.zero_le 1, by rw [hhist, List.append_nil]⟩
  · exact ⟨[e], Nat.le_refl 1, hhist⟩

/-- Settles O27: only a performed request writes the exposed buffer, and it copies the whole one. -/
theorem exposedBufferIsNeverPartlyCopied : Obligations.ExposedBufferIsNeverPartlyCopied := by
  intro s t h
  obtain ⟨-, ⟨-, rfl⟩ | ⟨q, rest, -, hstep⟩⟩ := step_next h
  · exact .inl rfl
  · rcases hstep with ⟨u, hu, rfl⟩ | ⟨f, -, rfl⟩ | ⟨r, -, rfl⟩
    · exact perform_next_exposed (s := s.take rest) (t := u) hu
    · exact .inl rfl
    · exact .inl rfl

/-- Settles O12: the idle case of `step`. -/
theorem deviceWithoutRequestStays : Obligations.DeviceWithoutRequestStays := by
  intro s hf hp
  rw [step, hf, hp]

/-! ### What only one operation changes -/

/-- Settles O25: the byte that differs is the one VRAM_WR wrote. -/
theorem onlyVramWritesChangeTheLiveBuffer : Obligations.OnlyVramWritesChangeTheLiveBuffer := by
  intro i s t k hs h hne
  rcases exec_next_live h with ⟨off, v, hi, -, hlive⟩ | hlive
  · rw [hlive] at hne ⊢
    obtain rfl : k = off.toNat := by_contra fun hk => hne (Memory.read_write_other hk)
    exact ⟨off, v, hi, rfl, Memory.read_write_self_of_wf hs.1⟩
  · exact absurd (congrArg (·.read k) hlive) hne

/-- Settles O26: every other operation leaves the three flags. -/
theorem onlyConfigWritesChangeTheConfigurationFlags :
    Obligations.OnlyConfigWritesChangeTheConfigurationFlags := by
  intro i s t h hne
  refine (exec_next_flags h).resolve_right fun ⟨hblink, hfont, hvsync⟩ => ?_
  simp [hblink, hfont, hvsync] at hne

/-! ### The two axes (R32) -/

/-- A Setup Register byte whose decode is a given mode (R70). -/
def setupByteOf (mode : BitVec 2) (text : Bool) : Byte :=
  mode.setWidth 8 ||| if text then 0#8 else 0b100#8

theorem setup_setupByteOf (mode : BitVec 2) (text : Bool) :
    setupMode (setupByteOf mode text) = mode ∧ setupText (setupByteOf mode text) = text := by
  revert mode text
  decide

/-- A TICK does not read the mode: in another mode it does the same and leaves that mode. -/
theorem exec_tick_withMode {f n : Nat} {s t : State} (m : BitVec 2) (b : Bool)
    (h : exec (.tick f n) s = .next t) :
    exec (.tick f n) { s with videoMode := m, isTextMode := b } =
      .next { t with videoMode := m, isTextMode := b } := by
  obtain ⟨hT, hc, rfl⟩ := execTick_next.1 h
  exact execTick_next.2 ⟨hT, hc, rfl⟩

/-- SETUP_WR does not read the counter: at another counter it does the same and leaves that counter. -/
theorem exec_setupWr_withCnt {v : Byte} {s t : State} (c : Nat)
    (h : exec (.setupWr v) s = .next t) :
    exec (.setupWr v) { s with cnt := c } = .next { t with cnt := c } := by
  rw [exec_setupWr] at h ⊢
  cases h
  rfl

/-- Settles O24, clause by clause. -/
theorem modeAxisAndTimingAxisAreIndependent : Obligations.ModeAxisAndTimingAxisAreIndependent := by
  refine ⟨fun i s t h hne => ?_, fun m b => ?_, fun i s t h hne => ?_, fun i s t h hne => ?_,
    fun f n s t m b => exec_tick_withMode m b, fun v s t c => exec_setupWr_withCnt c,
    fun f n s t h => ?_⟩
  · refine (exec_next_mode h).resolve_right fun ⟨hmode, htext⟩ => ?_
    simp [hmode, htext] at hne
  · obtain ⟨hmode, htext⟩ := setup_setupByteOf m b
    exact ⟨setupByteOf m b, fun s => ⟨_, exec_setupWr _ s, hmode, htext⟩⟩
  · rcases exec_next_timing h with ⟨f, n, hi, -⟩ | ⟨hcnt, -⟩
    · exact ⟨f, n, hi⟩
    · exact absurd hcnt hne
  · rcases exec_next_timing h with ⟨f, n, hi, ht⟩ | ⟨-, hexposed, hevents⟩
    · obtain ⟨k, hk, -, hnone, -⟩ := execTick_crossings ht
      refine ⟨f, n, hi, hk.1 (Nat.one_le_iff_ne_zero.2 fun hk0 => ?_)⟩
      simp [hnone hk0] at hne
    · simp [hexposed, hevents] at hne
  · obtain ⟨k, -, hcnt, hnone, hcopy⟩ := execTick_crossings h
    exact ⟨k, hcnt, hnone, hcopy⟩

/-! ### Construction -/

/-- A buffer made from `VRAM_SIZE` bytes holds exactly these bytes. -/
theorem Memory.bytes_ofBytes {bs : List Byte} (h : bs.length = vramSize) :
    (Memory.ofBytes bs).bytes = bs := by
  refine List.ext_getElem (by rw [Memory.length_bytes, h]) fun k hk hk' => ?_
  have hlt : k < vramSize := h ▸ hk'
  simp [Memory.bytes, Memory.read_ofBytes hlt, hk']

theorem constructed_canonical (a : ConstructArgs) (slot : Slot) : (constructed a slot).canonical :=
  ⟨Memory.wf_ofBytesFrom a.vramInit 0, Memory.wf_ofBytesFrom [] 0⟩

/-- Settles O58: the device that construction makes is `constructed`. -/
theorem constructionSetsEveryField : Obligations.ConstructionSetsEveryField := by
  intro a slot hslot halloc ⟨_, hcnt, hlen⟩
  have hc : construct a = .next (constructed a slot) := by simp [construct, hslot, halloc]
  exact ⟨_, hc, constructed_canonical a slot, hcnt, rfl, rfl, rfl, rfl, rfl, rfl, rfl, rfl,
    Memory.bytes_ofBytes hlen, fun _ _ => rfl, rfl, rfl, rfl, rfl, rfl, rfl, rfl, rfl, rfl⟩

/-- Settles O21: nothing has been requested or signalled, and the byte 0x00 decodes to the mode after
construction. -/
theorem resetMeetsTheInvariants : Obligations.ResetMeetsTheInvariants := by
  refine ⟨by decide, by decide, ?_, by decide, ?_, rfl, rfl, rfl⟩
  · exact List.forall_mem_nil _
  · exact List.forall_mem_nil _

end Sys2Proof.Machine
end

section
/-! PROOFS. The memory (20_memory.md): what the bus's reads and writes do, runs of operations, the
windows of the slots, the exposed byte, and devices side by side. In each part the rules stand before
the statements that use them. -/

namespace Sys2Proof.Machine

/-! ### What each bus write and each reader does -/

/-- An operation that only reads, or errs, completes with an answer and changes nothing else. -/
theorem exec_reader {i : Instr} (hi : isReader i = true) (s : State) :
    ∃ a, exec i s = .next (s.answer a []) := by
  rcases exec_stops (i := i) (s := s) with ⟨t, ht⟩ | ⟨f, n, x, rfl, -⟩
  · rcases exec_next ht with ⟨a, rfl⟩ | ⟨off, v, rfl, -⟩ | ⟨v, rfl, -⟩ | ⟨f, n, rfl, -⟩ |
      ⟨b, u, e, rfl, -⟩
    · exact ⟨a, ht⟩
    · exact nomatch hi
    · exact nomatch hi
    · exact nomatch hi
    · exact nomatch hi
  · exact nomatch hi

/-- VRAM_WR in the Video Memory window stores its byte (R86). -/
theorem exec_vramWr_of_inVram {off : Word} (h : inVram off = true) (v : Byte) (s : State) :
    exec (.vramWr off v) s = .next ((s.storeLive off.toNat v).answer .ok []) := by
  have hw : exec (.vramWr off v) s = writeByte .vram (busAddress s.slot off) v s := rfl
  rw [hw, writeByte_of_contains (by rw [vram_contains, h]), regionWrite, vram_offset h]

/-- VRAM_WR outside the window, which no key selects, answers the region's error (assumption 15). -/
theorem exec_vramWr_of_not_inVram {off : Word} (h : inVram off = false) (v : Byte) (s : State) :
    exec (.vramWr off v) s = .next (s.answer (.addressingError
      ⟨addressingErrorCode, busAddress s.slot off, .write, some .vram⟩) []) := by
  have hw : exec (.vramWr off v) s = writeByte .vram (busAddress s.slot off) v s := rfl
  rw [hw, writeByte_of_not_contains (by rw [vram_contains, h])]

/-- VRAM_RD in the Video Memory window answers the live byte (R84). -/
theorem exec_vramRd_of_inVram {off : Word} (h : inVram off = true) (s : State) :
    exec (.vramRd off) s = .next (s.answer (.byte (s.live.read off.toNat)) []) := by
  have hr : exec (.vramRd off) s = readByte .vram (busAddress s.slot off) s := rfl
  rw [hr, readByte_of_contains (by rw [vram_contains, h]), regionRead, vram_offset h]

/-- SETUP_RD answers the stored byte (R85). -/
theorem exec_setupRd (s : State) :
    exec .setupRd s = .next (s.answer (.byte s.setupReg) []) := by
  have hr : exec .setupRd s = readByte .setup (busAddress s.slot setupOffset) s := rfl
  rw [hr, readByte_of_contains (setupWrite_contains s.slot), regionRead]

/-- Only SETUP_WR writes the stored setup byte. -/
theorem exec_next_setupReg {i : Instr} {s t : State} (h : exec i s = .next t) :
    (∃ v, i = .setupWr v ∧ t.setupReg = v) ∨ t.setupReg = s.setupReg := by
  rcases exec_next h with ⟨a, rfl⟩ | ⟨off, v, -, -, rfl⟩ | ⟨v, hi, rfl⟩ | ⟨f, n, -, ht⟩ |
    ⟨b, u, e, -, rfl⟩
  · exact .inr rfl
  · exact .inr rfl
  · exact .inl ⟨v, hi, rfl⟩
  · obtain ⟨-, -, rfl⟩ := execTick_next.1 ht
    exact .inr rfl
  · exact .inr rfl

/-! ### Requests that a step refuses -/

/-- A bus request decodes, whatever its address is (R64). -/
theorem decode_bus_request {q : Request} (hq : q.isBus = true) (slot : Slot) :
    ∃ i, decode (q.encoded slot) = .ok i := by
  rw [Request.encoded, decode_mkKey]
  simp only [Request.isBus, Bool.or_eq_true, beq_iff_eq] at hq
  rcases hq with h | h
  · rw [h]
    exact ⟨_, rfl⟩
  · rw [h]
    exact ⟨_, rfl⟩

/-- The width check stands after decoding and before the operation (R37, R119). -/
theorem perform_wide {q : Request} (hq : q.isBus = true) (hw : q.width ≠ 1) (s : State) :
    perform q s = .refused .wideAccess := by
  obtain ⟨i, hi⟩ := decode_bus_request hq s.slot
  simp [perform, hi, hq, hw]

/-- Settles O14: the step serves the request, and the width check refuses it. -/
theorem wideAccessIsRefused : Obligations.WideAccessIsRefused := by
  intro s q rest hf hp hopc hw
  have hq : q.isBus = true := by simpa [Request.isBus] using hopc
  rw [step_of_pending hf hp, serve, perform_wide hq hw]
  rfl

/-! ### Reads and writes of one address -/

/-- Settles O28: a reader is neither a write nor a TICK nor CONFIG_WR, and so it only answers. -/
theorem readersCompleteAndChangeNothing : Obligations.ReadersCompleteAndChangeNothing :=
  fun _ s hi => exec_reader hi s

/-- Settles O38: storing a byte where it stands leaves a buffer in form as it is, and an erring write
answers the same error again. -/
theorem writingTheSameByteAgainChangesNothing :
    Obligations.WritingTheSameByteAgainChangesNothing := by
  intro s t i hs hi h
  rcases hi with ⟨off, v, rfl⟩ | ⟨v, rfl⟩
  · cases hoff : inVram off with
    | true =>
      rw [exec_vramWr_of_inVram hoff] at h ⊢
      cases h
      have hk : (s.live.write off.toNat v).write off.toNat v = s.live.write off.toNat v :=
        Memory.write_write_of_wf hs.1 ((inVram_iff off).1 hoff)
      simp [State.storeLive, State.answer, hk]
    | false =>
      rw [exec_vramWr_of_not_inVram hoff] at h ⊢
      cases h
      rfl
  · rw [exec_setupWr] at h ⊢
    cases h
    rfl

/-- Settles O30: an offset in neither window is a `noWindow` one. -/
theorem accessOutsideTheWindowsIsAnAddressingError :
    Obligations.AccessOutsideTheWindowsIsAnAddressingError := by
  intro s off data hvram hsetup
  refine ⟨rfl, rfl, ?_, ?_⟩
  · have hnot : inVram off = false := decide_eq_false (Nat.not_lt.2 hvram)
    exact (vram_contains s.slot off).trans hnot
  · have hne : off ≠ setupOffset := fun h => hsetup (congrArg BitVec.toNat h)
    exact (setup_contains s.slot off).trans (beq_eq_false_iff_ne.2 hne)

/-! ### Runs of operations -/

/-- A run that completes: its first operation completes, and so does the rest after it. -/
theorem runOps_cons_eq_some {i : Instr} {is : List Instr} {s t : State} {ms : List Msg} :
    runOps (i :: is) s = some (t, ms) ↔
      ∃ u ms', exec i s = .next u ∧ runOps is u = some (t, ms') ∧ ms = u.events ++ ms' := by
  rw [runOps]
  cases exec i s <;> simp [eq_comm]

/-- A run of one list after another completes exactly if both runs do. -/
theorem runOps_append_eq_some {is js : List Instr} {s t : State} {ms : List Msg} :
    runOps (is ++ js) s = some (t, ms) ↔
      ∃ u ms₁ ms₂, runOps is s = some (u, ms₁) ∧ runOps js u = some (t, ms₂) ∧ ms = ms₁ ++ ms₂ := by
  induction is generalizing s ms with
  | nil => simp
  | cons i is ih =>
    simp only [List.cons_append, runOps_cons_eq_some, ih]
    constructor
    · rintro ⟨u, -, hu, ⟨w, ms₁, ms₂, his, hjs, rfl⟩, rfl⟩
      exact ⟨w, _, ms₂, ⟨u, ms₁, hu, his, rfl⟩, hjs, (List.append_assoc ..).symm⟩
    · rintro ⟨w, -, ms₂, ⟨u, ms₁, hu, his, rfl⟩, hjs, rfl⟩
      exact ⟨u, _, hu, ⟨w, ms₁, ms₂, his, hjs, rfl⟩, List.append_assoc ..⟩

/-- What each operation of a run keeps, the run keeps. -/
theorem runOps_keeps {P : State → Prop} {is : List Instr} {s t : State} {ms : List Msg}
    (h : runOps is s = some (t, ms)) (hs : P s)
    (hop : ∀ i ∈ is, ∀ u v, exec i u = .next v → P u → P v) : P t := by
  induction is generalizing s ms with
  | nil => cases h; exact hs
  | cons i is ih =>
    obtain ⟨u, ms', hu, hrun, -⟩ := runOps_cons_eq_some.1 h
    exact ih hrun (hop i List.mem_cons_self s u hu hs)
      fun j hj => hop j (List.mem_cons_of_mem i hj)

/-- Operations that write elsewhere leave the live byte at an offset. -/
theorem runOps_live_read {is : List Instr} {s t : State} {ms : List Msg} {off : Word}
    (hno : ∀ w, Instr.vramWr off w ∉ is) (h : runOps is s = some (t, ms)) :
    t.live.read off.toNat = s.live.read off.toNat := by
  refine runOps_keeps (P := fun u => u.live.read off.toNat = s.live.read off.toNat) h rfl
    fun i hi u v hv hu => ?_
  rcases exec_next_live hv with ⟨off', w, rfl, -, hlive⟩ | hlive
  · have hne : off.toNat ≠ off'.toNat := fun he => hno w (BitVec.eq_of_toNat_eq he ▸ hi)
    rw [hlive, Memory.read_write_other hne, hu]
  · rw [hlive, hu]

/-- Operations without a SETUP_WR leave the stored setup byte. -/
theorem runOps_setupReg {is : List Instr} {s t : State} {ms : List Msg}
    (hno : ∀ w, Instr.setupWr w ∉ is) (h : runOps is s = some (t, ms)) :
    t.setupReg = s.setupReg := by
  refine runOps_keeps (P := fun u => u.setupReg = s.setupReg) h rfl fun i hi u v hv hu => ?_
  rcases exec_next_setupReg hv with ⟨w, rfl, -⟩ | hsetup
  · exact absurd hi (hno w)
  · exact hsetup.trans hu

/-- The parts of a run that starts with `i` and ends with `j`. -/
theorem runOps_cons_append_singleton {i j : Instr} {is : List Instr} {s t : State} {ms : List Msg}
    (h : runOps (i :: is ++ [j]) s = some (t, ms)) :
    ∃ u w ms', exec i s = .next u ∧ runOps is u = some (w, ms') ∧ exec j w = .next t := by
  obtain ⟨u, _, hu, hrest, -⟩ := runOps_cons_eq_some.1 h
  obtain ⟨w, ms', _, his, hlast, -⟩ := runOps_append_eq_some.1 hrest
  obtain ⟨x, _, hx, hnil, -⟩ := runOps_cons_eq_some.1 hlast
  cases hnil
  exact ⟨u, w, ms', hu, his, hx⟩

/-- Settles O39: the write stores the byte, the operations between leave it, the read answers it. -/
theorem readReturnsTheLatestWrite : Obligations.ReadReturnsTheLatestWrite := by
  refine ⟨fun s t off v is ms hs hoff hno h => ?_, fun s t v is ms hno h => ?_⟩
  · have hin : inVram off = true := (inVram_iff off).2 hoff
    obtain ⟨u, w, ms', hu, his, hw⟩ := runOps_cons_append_singleton h
    have hkept := runOps_live_read hno his
    rw [exec_vramWr_of_inVram hin] at hu
    rw [exec_vramRd_of_inVram hin] at hw
    cases hu
    cases hw
    simp [hkept, Memory.read_write_self_of_wf hs.1]
  · obtain ⟨u, w, ms', hu, his, hw⟩ := runOps_cons_append_singleton h
    have hkept := runOps_setupReg hno his
    rw [exec_setupWr] at hu
    rw [exec_setupRd] at hw
    cases hu
    cases hw
    simp [hkept]

/-! ### The windows of the slots -/

theorem window_vram_contains (slot : Slot) (addr : Word) :
    (window slot .vram).contains addr = inVram (busOffset slot addr) := by
  rw [← vram_contains, busAddress_busOffset]

theorem window_setup_contains (slot : Slot) (addr : Word) :
    (window slot .setup).contains addr = (busOffset slot addr == setupOffset) := by
  rw [← setup_contains, busAddress_busOffset]

/-- At one slot an address is in one window at most (R46, R78). -/
theorem region_eq_of_contains {slot : Slot} {r₁ r₂ : RegionId} {addr : Word}
    (h₁ : (window slot r₁).contains addr = true) (h₂ : (window slot r₂).contains addr = true) :
    r₁ = r₂ := by
  have hdisjoint (hv : (window slot .vram).contains addr = true)
      (hs : (window slot .setup).contains addr = true) : False := by
    rw [window_vram_contains] at hv
    rw [window_setup_contains, beq_iff_eq] at hs
    exact ne_setupOffset_of_inVram hv hs
  cases r₁ <;> cases r₂
  · rfl
  · exact (hdisjoint h₁ h₂).elim
  · exact (hdisjoint h₂ h₁).elim
  · rfl

/-- An address in a window of a slot is in the slot's block of 0x10000 addresses (R8, R60). -/
theorem block_of_contains {slot : Slot} {r : RegionId} {addr : Word}
    (h : (window slot r).contains addr = true) :
    (addr.toNat - 0xFF0A0000) / 0x10000 = slotNumber slot := by
  obtain ⟨hbase, -⟩ := slotTablesFollowTheSlotNumber slot
  have hwithin : (base slot).toNat ≤ addr.toNat ∧ addr.toNat < (base slot).toNat + 0x10000 := by
    simp only [Window.contains, Bool.and_eq_true, decide_eq_true_eq] at h
    cases r with
    | vram =>
      have hb : (window slot .vram).begin = base slot := rfl
      have hsz : (window slot .vram).size = 0x4400 := rfl
      rw [hb, hsz] at h
      omega
    | setup =>
      have hsz : (window slot .setup).size = 1 := rfl
      rw [setup_begin, hsz] at h
      omega
  omega

theorem slotNumber_injective : Function.Injective slotNumber := fun s₁ s₂ h => by
  obtain ⟨-, -, h₁, -⟩ := slotTablesFollowTheSlotNumber s₁
  obtain ⟨-, -, h₂, -⟩ := slotTablesFollowTheSlotNumber s₂
  exact Option.some.inj (h₁.symm.trans (h ▸ h₂))

/-- Settles O40: the address determines the slot by its block, and then the region by its offset. -/
theorem windowsOfDifferentSlotsAreDisjoint : Obligations.WindowsOfDifferentSlotsAreDisjoint := by
  intro s₁ s₂ r₁ r₂ addr hne h₁
  refine Bool.eq_false_of_not_eq_true fun h₂ => hne ?_
  obtain rfl : s₁ = s₂ :=
    slotNumber_injective ((block_of_contains h₁).symm.trans (block_of_contains h₂))
  rw [region_eq_of_contains h₁ h₂]

/-! ### The first crossing after a write -/

/-- A TICK whose sum fits the counter completes; below the threshold it only counts, and from it on it
copies the live buffer (R91, R94). -/
theorem exec_tick_completes {clockHz n : Nat} {s : State} (hT : threshold s.refreshHz clockHz ≠ 0)
    (hc : s.cnt + n ≤ cntMax s.cntW) :
    ∃ t, exec (.tick clockHz n) s = .next t ∧ s.sameParameters t ∧ t.live = s.live ∧
      (s.cnt + n < threshold s.refreshHz clockHz → t.cnt = s.cnt + n ∧ t.exposed = s.exposed) ∧
      (threshold s.refreshHz clockHz ≤ s.cnt + n → t.exposed = s.live) := by
  have h := execTick_next.2 ⟨hT, hc, rfl⟩
  obtain ⟨k, hk, hcnt, hnone, hcopy⟩ := execTick_crossings h
  refine ⟨_, h, s.sameParameters_refl, rfl, fun hlt => ?_, fun hle => hcopy (hk.2 hle)⟩
  obtain rfl : k = 0 := by omega
  exact ⟨by simpa using hcnt, (hnone rfl).1⟩

/-- Ticks that stay below the threshold together complete, count their cycles, and leave both
buffers. -/
theorem runOps_ticks_below {clockHz : Nat} {ns : List Nat} {s : State}
    (hT : threshold s.refreshHz clockHz ≤ cntMax s.cntW)
    (hsum : s.cnt + totalCycles ns < threshold s.refreshHz clockHz) :
    ∃ t ms, runOps (ticks clockHz ns) s = some (t, ms) ∧ s.sameParameters t ∧
      t.cnt = s.cnt + totalCycles ns ∧ t.live = s.live ∧ t.exposed = s.exposed := by
  induction ns generalizing s with
  | nil => exact ⟨s, [], rfl, s.sameParameters_refl, rfl, rfl, rfl⟩
  | cons n ns ih =>
    have hcons : totalCycles (n :: ns) = n + totalCycles ns := List.sum_cons
    rw [hcons] at hsum ⊢
    obtain ⟨u, hu, hpar, hlive, hbelow, -⟩ :=
      exec_tick_completes (s := s) (clockHz := clockHz) (n := n) (by omega) (by omega)
    obtain ⟨hcnt, hexposed⟩ := hbelow (by omega)
    obtain ⟨hslot, hpolicy, hhz, hcntW, haddrW, htickW⟩ := hpar
    obtain ⟨t, ms, hrun, hpar', hcnt', hlive', hexposed'⟩ :=
      ih (s := u) (by rwa [hhz, hcntW]) (by rw [hhz, hcnt]; omega)
    rw [State.sameParameters, hslot, hpolicy, hhz, hcntW, haddrW, htickW] at hpar'
    exact ⟨t, _, runOps_cons_eq_some.2 ⟨u, ms, hu, hrun, rfl⟩, hpar', by omega,
      hlive'.trans hlive, hexposed'.trans hexposed⟩

/-- Settles O51: the ticks before stay below the threshold, and the last one reaches it without
overflowing the counter, as twice the threshold fits (R97). -/
theorem writtenByteIsExposedAtTheFirstCrossing :
    Obligations.WrittenByteIsExposedAtTheFirstCrossing := by
  intro s off v clockHz last ns hs hoff hrate hcnt hshort hbelow hreach
  have hmax : 2 * threshold s.refreshHz clockHz ≤ cntMax s.cntW :=
    Nat.le_sub_one_of_lt hrate.two_threshold_lt
  have hlast := hshort last List.mem_cons_self
  have hw := exec_vramWr_of_inVram ((inVram_iff off).2 hoff) v s
  obtain ⟨t, ms, hrun, ⟨-, -, hhz, hcntW, -, -⟩, htcnt, htlive, htexposed⟩ :=
    runOps_ticks_below (clockHz := clockHz) (ns := ns)
      (s := (s.storeLive off.toNat v).answer .ok [])
      (show threshold s.refreshHz clockHz ≤ cntMax s.cntW by omega)
      (show s.cnt + totalCycles ns < threshold s.refreshHz clockHz by omega)
  simp only [State.answer_refreshHz, State.storeLive_refreshHz, State.answer_cntW,
    State.storeLive_cntW, State.answer_cnt, State.storeLive_cnt] at hhz hcntW htcnt
  obtain ⟨u, hu, -, -, -, hcopy⟩ :=
    exec_tick_completes (s := t) (clockHz := clockHz) (n := last) (by rw [hhz]; omega)
      (by rw [hcntW]; omega)
  have hwrun := runOps_cons_eq_some.2 ⟨_, ms, hw, hrun, rfl⟩
  refine ⟨t, u, _, _, hwrun, htexposed, runOps_append_eq_some.2 ⟨t, _, _, hwrun,
    runOps_cons_eq_some.2 ⟨u, [], hu, rfl, rfl⟩, rfl⟩, ?_⟩
  rw [hcopy (by rw [hhz]; omega), htlive]
  exact Memory.read_write_self_of_wf hs.1

/-! ### Devices side by side -/

/-- The slots of the platform's devices, by place. -/
def Platform.slots (p : Platform) : List Slot := p.devices.map (·.slot)

theorem Platform.slotsUnique_iff (p : Platform) : p.slotsUnique ↔ p.slots.Nodup :=
  List.pairwise_map.symm

theorem Platform.slots_getElem? (p : Platform) (k : Nat) :
    p.slots[k]? = p.devices[k]?.map (·.slot) := List.getElem?_map ..

/-- Two places with devices of one slot are one place, where the slots are unique. -/
theorem Platform.place_eq_of_slot_eq {p : Platform} {j k : Nat} {s t : State} (hp : p.slotsUnique)
    (hs : p.devices[j]? = some s) (ht : p.devices[k]? = some t) (h : s.slot = t.slot) : j = k := by
  have hj : p.slots[j]? = some s.slot := by rw [p.slots_getElem?, hs]; rfl
  have hk : p.slots[k]? = some s.slot := by rw [p.slots_getElem?, ht, h]; rfl
  obtain ⟨hlt, -⟩ := List.getElem?_eq_some_iff.1 hj
  exact (List.getElem?_inj hlt (p.slotsUnique_iff.1 hp)).1 (hj.trans hk.symm)

/-- The device asked for `q` performs it on the state it stands in, and books it. -/
theorem step_ask {s : State} (hf : s.fault = none) (q : Request) :
    step (s.ask q) = settle q s (perform q s) :=
  step_of_pending (s := s.ask q) hf rfl

/-- A step that serves a request signals nothing but the slot's own message (R96). -/
theorem step_next_events {s t : State} {q : Request} {rest : List Request}
    (hp : s.pending = q :: rest) (h : step s = .next t) : ∀ m ∈ t.events, m = irqMsg s.slot := by
  obtain ⟨-, ⟨hnil, -⟩ | ⟨q', rest', -, hstep⟩⟩ := step_next h
  · rw [hp] at hnil
    exact nomatch hnil
  · rcases hstep with ⟨u, hu, rfl⟩ | ⟨f, -, rfl⟩ | ⟨r, -, rfl⟩
    · exact perform_next_events (s := s.take rest') (t := u) hu
    · exact nofun
    · exact nofun

/-- A step of the platform keeps every device in its place and at its slot. -/
theorem Platform.step_next_slots {p q : Platform} (h : p.step = .next q) : q.slots = p.slots := by
  rcases Platform.step_next h with ⟨-, rfl⟩ | ⟨o, rest, -, ⟨-, rfl⟩ | ⟨s, t, hs, ht, rfl⟩⟩
  · rfl
  · rfl
  · obtain ⟨hslot, -⟩ := slotAndParametersAreFixed _ _ ht
    have hsame : t.slot = s.slot := hslot
    obtain ⟨hlt, hget⟩ := List.getElem?_eq_some_iff.1 hs
    refine List.ext_getElem? fun k => ?_
    rw [Platform.slots_getElem?, Platform.slots_getElem?, Platform.book_devices, List.getElem?_set]
    split
    · subst k
      simp [hlt, hget, hsame]
    · rfl

/-- A step of the platform moves no device but that of the oldest order (R129). -/
theorem Platform.step_next_frame {p q : Platform} (h : p.step = .next q) {j : Nat}
    (hj : ∀ o, p.orders.head? = some o → j ≠ o.device) : q.devices[j]? = p.devices[j]? := by
  rcases Platform.step_next h with ⟨-, rfl⟩ | ⟨o, rest, ho, ⟨-, rfl⟩ | ⟨s, t, -, -, rfl⟩⟩
  · rfl
  · rfl
  · exact List.getElem?_set_ne (hj o (by rw [ho]; rfl)).symm

/-- Every message of the performed order is the own message of the device it went to, which stands at
that device's slot. -/
def Served.ownMessages (slots : List Slot) (e : Served) : Prop :=
  ∀ m ∈ e.msgs, ∃ slot, slots[e.order.device]? = some slot ∧ m = irqMsg slot

/-- What a step of the platform performs: nothing without an order; else the oldest one, with messages
of its device only (R122). -/
theorem Platform.step_next_serves {p q : Platform} (h : p.step = .next q) :
    (p.orders = [] ∧ q = p) ∨
    ∃ o rest ms, p.orders = o :: rest ∧ q.orders = rest ∧ q.served = p.served ++ [⟨o, ms⟩] ∧
      Served.ownMessages p.slots ⟨o, ms⟩ := by
  rcases Platform.step_next h with hidle | ⟨o, rest, ho, ⟨-, rfl⟩ | ⟨s, t, hs, ht, rfl⟩⟩
  · exact .inl hidle
  · exact .inr ⟨o, rest, [], ho, rfl, rfl, nofun⟩
  · refine .inr ⟨o, rest, t.events, ho, rfl, rfl, fun m hm => ⟨s.slot, ?_, ?_⟩⟩
    · rw [p.slots_getElem?, hs]
      rfl
    · exact step_next_events (s := s.ask o.request) rfl ht m hm

/-- The orders that `n` steps of the platform perform: the `n` oldest, in the host's order, each with
messages of its device only. -/
theorem Platform.steps_serve {n : Nat} {p q : Platform} (h : p.steps n = .next q) :
    q.orders = p.orders.drop n ∧ ∃ es : List Served, q.served = p.served ++ es ∧
      es.map (·.order) = p.orders.take n ∧ ∀ e ∈ es, e.ownMessages p.slots := by
  induction n generalizing p with
  | zero =>
    cases h
    exact ⟨rfl, [], by simp⟩
  | succ n ih =>
    obtain ⟨r, hr, hrun⟩ := Platform.steps_succ_next.1 h
    obtain ⟨horders, es, hserved, hmap, hown⟩ := ih hrun
    rw [Platform.step_next_slots hr] at hown
    rcases Platform.step_next_serves hr with ⟨hnil, rfl⟩ | ⟨o, rest, ms, ho, hro, hrs, hoown⟩
    · exact ⟨by simpa [hnil] using horders, es, hserved, by simpa [hnil] using hmap, hown⟩
    · exact ⟨by rw [horders, hro, ho, List.drop_succ_cons], ⟨o, ms⟩ :: es, by simp [hserved, hrs],
        by simp [hmap, hro, ho], List.forall_mem_cons.2 ⟨hoown, hown⟩⟩

/-- The written TICK with a cycle count is performed as that TICK (R74). -/
theorem perform_tick_line (f n : Nat) (s : State) :
    perform (Line.tick f (some n)).request s = exec (.tick f n) s := by
  refine perform_eq_exec ?_ nofun
  rw [Request.encoded, decode_mkKey]
  rfl

/-- A step of the platform whose oldest order its device performs. -/
theorem Platform.step_of_next {p : Platform} {o : Order} {rest : List Order} {s t : State}
    (ho : p.orders = o :: rest) (hs : p.devices[o.device]? = some s)
    (ht : Machine.step (s.ask o.request) = .next t) :
    p.step = .next (p.book o rest (p.devices.set o.device t) t.events) := by
  simp [Platform.step, ho, hs, ht]

/-- A step of the platform whose oldest order is a TICK that completes on its device. -/
theorem Platform.step_tick {p : Platform} {k f n : Nat} {s s' : State} {rest : List Order}
    (hs : p.devices[k]? = some s) (hf : s.fault = none)
    (ho : p.orders = ⟨k, (Line.tick f (some n)).request⟩ :: rest)
    (h : exec (.tick f n) s = .next s') :
    ∃ t, p.step = .next (p.book ⟨k, (Line.tick f (some n)).request⟩ rest (p.devices.set k t)
      s'.events) := by
  have ht := step_ask hf (Line.tick f (some n)).request
  rw [perform_tick_line, h, settle] at ht
  exact ⟨_, Platform.step_of_next (t := s'.record _) ho hs ht⟩

/-- Settles O60: a step by its effect on the slots and its frame, a run by induction on its steps, and
the two TICKs one step after the other. -/
theorem devicesDoNotInteractAndMessagesFollowTheHostsOrder :
    Obligations.DevicesDoNotInteractAndMessagesFollowTheHostsOrder := by
  refine ⟨fun p q hp h => ?_, fun p q n h => ?_,
    fun p j k s t s' t' f g n m rest hjk hs ht hsf htf ho hs' ht' => ?_⟩
  · have hslots := Platform.step_next_slots h
    have hq : q.slotsUnique := by rwa [q.slotsUnique_iff, hslots, ← p.slotsUnique_iff]
    refine ⟨hq, by simpa [Platform.slots] using congrArg List.length hslots,
      fun j => Platform.step_next_frame h, fun j₁ j₂ s₁ s₂ r₁ r₂ addr hj h₁ h₂ => ?_⟩
    refine windowsOfDifferentSlotsAreDisjoint s₁.slot s₂.slot r₁ r₂ addr fun heq => hj ?_
    exact Platform.place_eq_of_slot_eq hq h₁ h₂ (Prod.mk.inj heq).1
  · obtain ⟨horders, es, hserved, hmap, hown⟩ := Platform.steps_serve h
    refine ⟨horders, es, hserved, hmap, by simp [Platform.messages, hserved], fun e he m hm => ?_⟩
    obtain ⟨slot, hslot, hmsg⟩ := hown e he m hm
    rw [p.slots_getElem?, Option.map_eq_some_iff] at hslot
    obtain ⟨s, hs, rfl⟩ := hslot
    exact ⟨s, hs, hmsg⟩
  · obtain ⟨u, hu⟩ := Platform.step_tick hs hsf ho hs'
    obtain ⟨w, hw⟩ := Platform.step_tick (p := p.book _ _ (p.devices.set j u) s'.events)
      ((List.getElem?_set_ne hjk).trans ht) htf rfl ht'
    refine ⟨_, Platform.steps_succ_next.2 ⟨_, hu, Platform.steps_succ_next.2 ⟨_, hw, rfl⟩⟩, ?_⟩
    rw [Platform.book_messages, Platform.book_messages]

end Sys2Proof.Machine
end

section
/-! PROOFS. The encoding (30_encoding.md): the decoder code by code, encode and decode, the opcode
table, port requests, the dispatcher, the reserved codes and the Setup Register byte. In each part the
rules stand before the statements that use them. -/

namespace Sys2Proof

open Machine

/-! ### What each operation code decodes to (R59, R63) -/

@[simp] theorem decode_busRead (f : Word) (d : Side) :
    decode ⟨mkKey 0x0#4 f, d⟩ = .ok (decodeBusRead f) := decode_mkKey ..
@[simp] theorem decode_busWrite (f : Word) (d : Side) :
    decode ⟨mkKey 0x1#4 f, d⟩ = .ok (decodeBusWrite f d.data) := decode_mkKey ..
@[simp] theorem decode_tick (f : Word) (d : Side) :
    decode ⟨mkKey 0x2#4 f, d⟩ = .ok (.tick d.clockHz (d.n.getD 1)) := decode_mkKey ..
@[simp] theorem decode_configWr (f : Word) (d : Side) :
    decode ⟨mkKey 0x3#4 f, d⟩ = .ok (.configWr d.blink d.userFont d.vsyncEn) := decode_mkKey ..
@[simp] theorem decode_exposedRd (f : Word) (d : Side) :
    decode ⟨mkKey 0x4#4 f, d⟩ = .ok .exposedRd := decode_mkKey ..
@[simp] theorem decode_exposedByte (k : Word) (d : Side) :
    decode ⟨mkKey 0x5#4 k, d⟩ = .ok (decodeExposedByte k) := decode_mkKey ..
@[simp] theorem decode_modeRd (f : Word) (d : Side) :
    decode ⟨mkKey 0x6#4 f, d⟩ = .ok .modeRd := decode_mkKey ..
@[simp] theorem decode_textRd (f : Word) (d : Side) :
    decode ⟨mkKey 0x7#4 f, d⟩ = .ok .textRd := decode_mkKey ..
@[simp] theorem decode_blinkRd (f : Word) (d : Side) :
    decode ⟨mkKey 0x8#4 f, d⟩ = .ok .blinkRd := decode_mkKey ..
@[simp] theorem decode_userfontRd (f : Word) (d : Side) :
    decode ⟨mkKey 0x9#4 f, d⟩ = .ok .userfontRd := decode_mkKey ..
@[simp] theorem decode_identRd (f : Word) (d : Side) :
    decode ⟨mkKey 0xA#4 f, d⟩ = .ok .identRd := decode_mkKey ..
@[simp] theorem decode_regionsRd (f : Word) (d : Side) :
    decode ⟨mkKey 0xB#4 f, d⟩ = .ok .regionsRd := decode_mkKey ..

theorem decode_reserved {opc : Opc} (h : 0xC ≤ opc.toNat) (f : Word) (d : Side) :
    decode ⟨mkKey opc f, d⟩ = .error .reservedOpcode := by
  obtain ⟨n, hn⟩ := Nat.exists_eq_add_of_le' h
  rw [decode_mkKey, hn]
  rfl

/-- To show a property of every key with its side operands, show it code by code: the twelve codes
of R59, and the reserved ones (R65). -/
theorem encoded_cases {P : Encoded → Prop}
    (busRead : ∀ f d, P ⟨mkKey 0x0#4 f, d⟩) (busWrite : ∀ f d, P ⟨mkKey 0x1#4 f, d⟩)
    (tick : ∀ f d, P ⟨mkKey 0x2#4 f, d⟩) (configWr : ∀ f d, P ⟨mkKey 0x3#4 f, d⟩)
    (exposedRd : ∀ f d, P ⟨mkKey 0x4#4 f, d⟩) (exposedByte : ∀ f d, P ⟨mkKey 0x5#4 f, d⟩)
    (modeRd : ∀ f d, P ⟨mkKey 0x6#4 f, d⟩) (textRd : ∀ f d, P ⟨mkKey 0x7#4 f, d⟩)
    (blinkRd : ∀ f d, P ⟨mkKey 0x8#4 f, d⟩) (userfontRd : ∀ f d, P ⟨mkKey 0x9#4 f, d⟩)
    (identRd : ∀ f d, P ⟨mkKey 0xA#4 f, d⟩) (regionsRd : ∀ f d, P ⟨mkKey 0xB#4 f, d⟩)
    (reserved : ∀ opc f d, 0xC ≤ opc.toNat → P ⟨mkKey opc f, d⟩) (e : Encoded) : P e := by
  obtain ⟨key, d⟩ := e
  rw [← mkKey_keyOpc_keyF key]
  generalize keyOpc key = opc, keyF key = f
  have hof {n : Nat} (h : opc.toNat = n) : opc = BitVec.ofNat 4 n := by
    rw [← h, BitVec.ofNat_toNat, BitVec.setWidth_eq]
  match h : opc.toNat with
  | 0x0 => exact hof h ▸ busRead f d
  | 0x1 => exact hof h ▸ busWrite f d
  | 0x2 => exact hof h ▸ tick f d
  | 0x3 => exact hof h ▸ configWr f d
  | 0x4 => exact hof h ▸ exposedRd f d
  | 0x5 => exact hof h ▸ exposedByte f d
  | 0x6 => exact hof h ▸ modeRd f d
  | 0x7 => exact hof h ▸ textRd f d
  | 0x8 => exact hof h ▸ blinkRd f d
  | 0x9 => exact hof h ▸ userfontRd f d
  | 0xA => exact hof h ▸ identRd f d
  | 0xB => exact hof h ▸ regionsRd f d
  | n + 12 => exact reserved opc f d (by omega)

/-! ### Which row of its code a field selects (R64) -/

theorem noWindow_iff (f : Word) : noWindow f = true ↔ inVram f = false ∧ f ≠ setupOffset := by
  simp [noWindow]

theorem decodeBusRead_of_inVram {f : Word} (h : inVram f = true) : decodeBusRead f = .vramRd f :=
  if_pos h

theorem decodeBusRead_of_noWindow {f : Word} (h : noWindow f = true) :
    decodeBusRead f = .busRdNowin f := by
  obtain ⟨hvram, hsetup⟩ := (noWindow_iff f).1 h
  simp [decodeBusRead, hvram, hsetup]

theorem decodeBusWrite_of_inVram {f : Word} (h : inVram f = true) (v : Byte) :
    decodeBusWrite f v = .vramWr f v := if_pos h

theorem decodeBusWrite_of_noWindow {f : Word} (h : noWindow f = true) (v : Byte) :
    decodeBusWrite f v = .busWrNowin f v := by
  obtain ⟨hvram, hsetup⟩ := (noWindow_iff f).1 h
  simp [decodeBusWrite, hvram, hsetup]

theorem decodeExposedByte_of_inVram {k : Word} (h : inVram k = true) :
    decodeExposedByte k = .exposedRdb k := if_pos h

theorem decodeExposedByte_of_not_inVram {k : Word} (h : inVram k = false) :
    decodeExposedByte k = .exposedRdbNowin k := if_neg (by simp [h])

theorem wellFormed_decodeBusRead (f : Word) : (decodeBusRead f).wellFormed = true := by
  rcases decodeBusRead_cases f with ⟨h, hd⟩ | ⟨-, hd⟩ | ⟨h, hd⟩
  · rw [hd]; exact h
  · rw [hd]; rfl
  · rw [hd]; exact h

theorem wellFormed_decodeBusWrite (f : Word) (v : Byte) :
    (decodeBusWrite f v).wellFormed = true := by
  rcases decodeBusWrite_cases f v with ⟨h, hd⟩ | ⟨-, hd⟩ | ⟨h, hd⟩
  · rw [hd]; exact h
  · rw [hd]; rfl
  · rw [hd]; exact h

theorem wellFormed_decodeExposedByte (k : Word) : (decodeExposedByte k).wellFormed = true := by
  rcases decodeExposedByte_cases k with ⟨h, hd⟩ | ⟨h, hd⟩
  · rw [hd]; exact h
  · rw [hd]; simpa [Instr.wellFormed] using h

/-! ### Encode and decode -/

/-- Settles O1, operation by operation: its code is decoded by the rule of that code, and the
condition on `f` selects its row. -/
theorem wellFormedOperationsDecodeFromTheirWords :
    Obligations.WellFormedOperationsDecodeFromTheirWords := by
  intro i h
  cases i with
  | vramRd off => simp [encode, decodeBusRead_of_inVram h]
  | setupRd => exact decode_busRead ..
  | busRdNowin off => simp [encode, decodeBusRead_of_noWindow h]
  | vramWr off v => simp [encode, decodeBusWrite_of_inVram h]
  | setupWr v => exact decode_busWrite ..
  | busWrNowin off v => simp [encode, decodeBusWrite_of_noWindow h]
  | tick clockHz n => exact decode_tick ..
  | configWr b u v => exact decode_configWr ..
  | exposedRd => exact decode_exposedRd ..
  | exposedRdb k => simp [encode, decodeExposedByte_of_inVram h]
  | exposedRdbNowin k =>
    rw [Instr.wellFormed, Bool.not_eq_true'] at h
    simp [encode, decodeExposedByte_of_not_inVram h]
  | modeRd => exact decode_modeRd ..
  | textRd => exact decode_textRd ..
  | blinkRd => exact decode_blinkRd ..
  | userfontRd => exact decode_userfontRd ..
  | identRd => exact decode_identRd ..
  | regionsRd => exact decode_regionsRd ..

/-- Settles O2, code by code: only the codes 0x0, 0x1 and 0x5 have rows with a condition on `f`. -/
theorem decodedOperationsAreWellFormed : Obligations.DecodedOperationsAreWellFormed := by
  intro e i h
  cases e using encoded_cases with
  | busRead f d => cases (decode_busRead f d).symm.trans h; exact wellFormed_decodeBusRead f
  | busWrite f d =>
    cases (decode_busWrite f d).symm.trans h; exact wellFormed_decodeBusWrite f d.data
  | exposedByte k d =>
    cases (decode_exposedByte k d).symm.trans h; exact wellFormed_decodeExposedByte k
  | reserved opc f d hopc => cases (decode_reserved hopc f d).symm.trans h
  | _ =>
    simp only [decode_tick, decode_configWr, decode_exposedRd, decode_modeRd, decode_textRd,
      decode_blinkRd, decode_userfontRd, decode_identRd, decode_regionsRd, Except.ok.injEq] at h
    subst h
    rfl

/-! ### The opcode table -/

/-- The operation code of a row's pattern. Every row's mask covers it. -/
def Row.code (r : Row) : Opc := keyOpc r.pattern

/-- The row's pattern and guard hold of the field `f`. -/
def Row.fieldHits (r : Row) (f : Word) : Bool :=
  (f &&& keyF r.mask == keyF r.pattern) && (!r.guarded || inVram f)

theorem mkKey_and (opc opc' : Opc) (f f' : Word) :
    mkKey opc f &&& mkKey opc' f' = mkKey (opc &&& opc') (f &&& f') := by
  refine BitVec.eq_of_getLsbD_eq fun i _ => ?_
  simp only [BitVec.getLsbD_and, getLsbD_mkKey]
  split <;> rfl

theorem mkKey_inj {opc opc' : Opc} {f f' : Word} :
    mkKey opc f = mkKey opc' f' ↔ opc = opc' ∧ f = f' := by
  refine ⟨fun h => ?_, fun ⟨hopc, hf⟩ => hopc ▸ hf ▸ rfl⟩
  exact ⟨by simpa using congrArg keyOpc h, by simpa using congrArg keyF h⟩

/-- A row whose mask covers the whole code hits the keys of its code whose field it hits. -/
theorem Row.hits_mkKey {r : Row} (hmask : keyOpc r.mask = 0xF) (opc : Opc) (f : Word) :
    r.hits (mkKey opc f) = (r.code == opc && r.fieldHits f) := by
  have hcode : opc &&& 0xF = opc := BitVec.and_allOnes
  rw [Row.hits, Row.fieldHits, Row.code, ← mkKey_keyOpc_keyF r.mask, ← mkKey_keyOpc_keyF r.pattern,
    mkKey_and, hmask, hcode, Bool.eq_iff_iff]
  simp [mkKey_inj, and_assoc, eq_comm (a := opc)]

/-- The rows of one operation code. -/
def rowsOf (rows : List Row) (opc : Opc) : List Row := rows.filter (·.code == opc)

/-- The rows that a key hits are, among those of its code, the ones its field hits. -/
theorem filter_hits {rows : List Row} (hmask : ∀ r ∈ rows, keyOpc r.mask = 0xF) (opc : Opc)
    (f : Word) : rows.filter (·.hits (mkKey opc f)) = (rowsOf rows opc).filter (·.fieldHits f) := by
  rw [rowsOf, List.filter_filter]
  refine List.filter_congr fun r hr => ?_
  rw [Row.hits_mkKey (hmask r hr), Bool.and_comm]

/-- Where the field hits a normal row of the code, the key selects the normal rows it hits (R64). -/
theorem selectedRows_of_normal {opc : Opc} {f : Word} {r : Row} {rows : List Row}
    (h : (rowsOf normalRows opc).filter (·.fieldHits f) = r :: rows) :
    selectedRows (mkKey opc f) = r :: rows := by
  rw [selectedRows, filter_hits (by decide), h]

/-- Where the field hits none, it selects the lowest row of the code (R64). -/
theorem selectedRows_of_lowest {opc : Opc} {f : Word}
    (h : (rowsOf normalRows opc).filter (·.fieldHits f) = []) :
    selectedRows (mkKey opc f) = (rowsOf lowestRows opc).filter (·.fieldHits f) := by
  rw [selectedRows, filter_hits (by decide), h, filter_hits (by decide)]

/-- The form of a row that takes every field of its code. -/
def codeRow (name : String) (opc : Opc) : Row := ⟨name, mkKey opc 0, 0xF00000000#36, false⟩

/-- The form of a row with the guard `f < 0x4400`. -/
def windowRow (name : String) (opc : Opc) : Row := ⟨name, mkKey opc 0, 0xFFFFF8000#36, true⟩

/-- The form of a row for the setup offset alone. -/
def setupRow (name : String) (opc : Opc) : Row :=
  ⟨name, mkKey opc setupOffset, 0xFFFFFFFFF#36, false⟩

@[simp] theorem mnemonic_codeRow (name : String) (opc : Opc) :
    (codeRow name opc).mnemonic = name := rfl
@[simp] theorem mnemonic_windowRow (name : String) (opc : Opc) :
    (windowRow name opc).mnemonic = name := rfl
@[simp] theorem mnemonic_setupRow (name : String) (opc : Opc) :
    (setupRow name opc).mnemonic = name := rfl

@[simp] theorem fieldHits_codeRow (name : String) (opc : Opc) (f : Word) :
    (codeRow name opc).fieldHits f = true := by
  have hmask : keyF 0xF00000000#36 = 0 := rfl
  simp [Row.fieldHits, codeRow, hmask]

@[simp] theorem fieldHits_setupRow (name : String) (opc : Opc) (f : Word) :
    (setupRow name opc).fieldHits f = (f == setupOffset) := by
  have hmask : f &&& keyF 0xFFFFFFFFF#36 = f := BitVec.and_allOnes
  simp [Row.fieldHits, setupRow, hmask]

/-- A field below `VRAM_SIZE` has none of the bits that the guarded rows' mask covers. -/
theorem and_windowMask_of_inVram {f : Word} (h : inVram f = true) : f &&& 0xFFFF8000#32 = 0 := by
  rw [inVram_iff] at h
  refine BitVec.eq_of_getLsbD_eq fun i _ => ?_
  by_cases hi : i < 15
  · have hmask : ∀ j < 15, (0xFFFF8000#32).getLsbD j = false := by decide
    simp [hmask i hi]
  · have hpow : 2 ^ 15 ≤ 2 ^ i := Nat.pow_le_pow_right (by decide) (by omega)
    have hf : f.getLsbD i = false := Nat.testBit_lt_two_pow (by omega)
    simp [hf]

@[simp] theorem fieldHits_windowRow (name : String) (opc : Opc) (f : Word) :
    (windowRow name opc).fieldHits f = inVram f := by
  have hmask : keyF 0xFFFFF8000#36 = 0xFFFF8000#32 := rfl
  cases h : inVram f with
  | false => simp [Row.fieldHits, windowRow, h]
  | true => simp [Row.fieldHits, windowRow, h, hmask, and_windowMask_of_inVram h]

/-- A code with one row, for any field. -/
theorem selectedRows_of_codeRow {opc : Opc} {name : String}
    (h : rowsOf normalRows opc = [codeRow name opc]) (f : Word) :
    (selectedRows (mkKey opc f)).map (·.mnemonic) = [name] := by
  rw [selectedRows_of_normal (r := codeRow name opc) (rows := []) (by simp [h])]
  rfl

/-- A bus code: the row of the window the field is in, or the lowest row. -/
theorem selectedRows_of_busRows {opc : Opc} {vram setup nowin : String}
    (hnormal : rowsOf normalRows opc = [windowRow vram opc, setupRow setup opc])
    (hlowest : rowsOf lowestRows opc = [codeRow nowin opc]) (f : Word) :
    (selectedRows (mkKey opc f)).map (·.mnemonic) =
      [if inVram f then vram else if f = setupOffset then setup else nowin] := by
  by_cases hv : inVram f = true
  · have hf := ne_setupOffset_of_inVram hv
    rw [selectedRows_of_normal (r := windowRow vram opc) (rows := []) (by simp [hnormal, hv, hf])]
    simp [hv]
  · by_cases hf : f = setupOffset
    · rw [selectedRows_of_normal (r := setupRow setup opc) (rows := [])
        (by simp [hnormal, hf, setupOffset_not_inVram])]
      simp [hf, setupOffset_not_inVram]
    · rw [selectedRows_of_lowest (by simp [hnormal, hv, hf]), hlowest]
      simp [hv, hf]

/-- The code of the byte-wise exposed reads: the guarded row, or the lowest row. -/
theorem selectedRows_of_indexRows {opc : Opc} {inside outside : String}
    (hnormal : rowsOf normalRows opc = [windowRow inside opc])
    (hlowest : rowsOf lowestRows opc = [codeRow outside opc]) (k : Word) :
    (selectedRows (mkKey opc k)).map (·.mnemonic) = [if inVram k then inside else outside] := by
  by_cases hk : inVram k = true
  · rw [selectedRows_of_normal (r := windowRow inside opc) (rows := []) (by simp [hnormal, hk])]
    simp [hk]
  · rw [selectedRows_of_lowest (by simp [hnormal, hk]), hlowest]
    simp [hk]

/-- A reserved code has no row. -/
theorem selectedRows_reserved {opc : Opc} (h : 0xC ≤ opc.toNat) (f : Word) :
    selectedRows (mkKey opc f) = [] := by
  have hnone : ∀ o : Opc, 0xC ≤ o.toNat → rowsOf normalRows o = [] ∧ rowsOf lowestRows o = [] := by
    decide
  obtain ⟨hnormal, hlowest⟩ := hnone opc h
  rw [selectedRows_of_lowest (by rw [hnormal]; rfl), hlowest]
  rfl

theorem mnemonic_decodeBusRead (f : Word) : mnemonic (decodeBusRead f) =
    if inVram f then "VRAM_RD" else if f = setupOffset then "SETUP_RD" else "BUS_RD_NOWIN" := by
  unfold decodeBusRead
  split_ifs <;> rfl

theorem mnemonic_decodeBusWrite (f : Word) (v : Byte) : mnemonic (decodeBusWrite f v) =
    if inVram f then "VRAM_WR" else if f = setupOffset then "SETUP_WR" else "BUS_WR_NOWIN" := by
  unfold decodeBusWrite
  split_ifs <;> rfl

theorem mnemonic_decodeExposedByte (k : Word) : mnemonic (decodeExposedByte k) =
    if inVram k then "EXPOSED_RDB" else "EXPOSED_RDB_NOWIN" := by
  unfold decodeExposedByte
  split_ifs <;> rfl

/-- A key selects the one row of the operation it decodes to, and none where it decodes to none. -/
theorem mnemonic_selectedRows (e : Encoded) :
    (selectedRows e.key).map (·.mnemonic) = ((decode e).toOption.map mnemonic).toList := by
  cases e using encoded_cases with
  | busRead f d =>
    rw [selectedRows_of_busRows rfl rfl, decode_busRead, ← mnemonic_decodeBusRead]; rfl
  | busWrite f d =>
    rw [selectedRows_of_busRows rfl rfl, decode_busWrite, ← mnemonic_decodeBusWrite f d.data]; rfl
  | exposedByte k d =>
    rw [selectedRows_of_indexRows rfl rfl, decode_exposedByte, ← mnemonic_decodeExposedByte]; rfl
  | tick f d => rw [selectedRows_of_codeRow rfl, decode_tick]; rfl
  | configWr f d => rw [selectedRows_of_codeRow rfl, decode_configWr]; rfl
  | exposedRd f d => rw [selectedRows_of_codeRow rfl, decode_exposedRd]; rfl
  | modeRd f d => rw [selectedRows_of_codeRow rfl, decode_modeRd]; rfl
  | textRd f d => rw [selectedRows_of_codeRow rfl, decode_textRd]; rfl
  | blinkRd f d => rw [selectedRows_of_codeRow rfl, decode_blinkRd]; rfl
  | userfontRd f d => rw [selectedRows_of_codeRow rfl, decode_userfontRd]; rfl
  | identRd f d => rw [selectedRows_of_codeRow rfl, decode_identRd]; rfl
  | regionsRd f d => rw [selectedRows_of_codeRow rfl, decode_regionsRd]; rfl
  | reserved opc f d h => rw [selectedRows_reserved h, decode_reserved h]; rfl

/-- The decoder refuses the reserved codes, and nothing else (R65). -/
theorem decode_eq_error_iff (e : Encoded) :
    decode e = .error .reservedOpcode ↔ 0xC ≤ (keyOpc e.key).toNat := by
  cases e using encoded_cases with
  | reserved opc f d h => simp [decode_reserved h, h]
  | _ => simp

/-- Settles O3: the rows by the code and the field of the key, the refusal by the code alone. -/
theorem decoderFollowsTheOpcodeTable : Obligations.DecoderFollowsTheOpcodeTable := by
  intro e
  have hrows := mnemonic_selectedRows e
  refine ⟨fun i h => ?_, fun h => ?_, decode_eq_error_iff e⟩
  · rw [hrows, h]
    rfl
  · rw [h] at hrows
    exact List.map_eq_nil_iff.1 hrows

/-! ### Port requests -/

/-- A key put on the port and encoded again: its field comes back where the code reads one, and is 0
elsewhere. -/
theorem encoded_ofEncoded (slot : Slot) (opc : Opc) (f : Word) (d : Side) :
    (Request.ofEncoded slot ⟨mkKey opc f, d⟩).encoded slot =
      ⟨mkKey opc (if opc = 0x0 ∨ opc = 0x1 ∨ opc = 0x5 then f else 0), d⟩ := by
  simp only [Request.ofEncoded, Request.encoded, Request.f, Request.isBus, keyOpc_mkKey, keyF_mkKey,
    busOffset_busAddress, Bool.or_eq_true, beq_iff_eq]
  split_ifs <;> simp_all

/-- Settles O6: the bus address stands for the offset, the index is the field, and where the port
carries neither the code ignores the field. -/
theorem portRequestIsDecodedAsItsKey : Obligations.PortRequestIsDecodedAsItsKey := by
  intro slot e
  cases e using encoded_cases with
  | reserved opc f d h => rw [encoded_ofEncoded, decode_reserved h, decode_reserved h]
  | _ => simp [encoded_ofEncoded]

/-- Settles O7: the request of each line has the code of its row, and the bus lines their offset. -/
theorem writtenRequestsDecodeToTheirOperations :
    Obligations.WrittenRequestsDecodeToTheirOperations := by
  intro slot
  exact ⟨fun addr => decode_busRead _ _, fun addr v => decode_busWrite _ _,
    fun f n => decode_tick _ _, fun f => decode_tick _ _, fun b u v => decode_configWr _ _,
    fun k => decode_exposedByte _ _,
    decode_exposedRd _ _, decode_modeRd _ _, decode_textRd _ _, decode_blinkRd _ _,
    decode_userfontRd _ _, decode_identRd _ _, decode_regionsRd _ _⟩

/-- Settles O4, word by word. -/
theorem writtenKeysDecodeToTheirRows : Obligations.WrittenKeysDecodeToTheirRows :=
  ⟨rfl, rfl, rfl, rfl, rfl, rfl, rfl, rfl, rfl, rfl, rfl, rfl⟩

/-! ### The bus -/

/-- Settles O5: the offset as a number, and the window tests of `Laws/Ops.lean` at the address it
stands for. -/
theorem busOffsetTellsTheWindow : Obligations.BusOffsetTellsTheWindow := by
  intro slot addr
  obtain ⟨-, hbase⟩ := base_bounds slot
  refine ⟨?_, by omega, (window_vram_contains slot addr).symm,
    (window_setup_contains slot addr).symm, fun h => ?_, busAddress_busOffset slot addr⟩
  · rw [busOffset, BitVec.toNat_sub]
    omega
  · rw [← vram_offset h, busAddress_busOffset]

theorem dispatchRead_of_regionAt {s : State} {addr : Word} {r : RegionId}
    (h : regionAt s.slot addr = some r) : dispatchRead addr s = readByte r addr s := by
  have hc : (window s.slot r).contains addr = true :=
    List.find?_some (p := fun r => (window s.slot r).contains addr) h
  rw [dispatchRead, h, readByte_of_contains hc]
  rfl

theorem dispatchWrite_of_regionAt {s : State} {addr : Word} {r : RegionId} (v : Byte)
    (h : regionAt s.slot addr = some r) : dispatchWrite addr v s = writeByte r addr v s := by
  have hc : (window s.slot r).contains addr = true :=
    List.find?_some (p := fun r => (window s.slot r).contains addr) h
  rw [dispatchWrite, h, writeByte_of_contains hc]
  rfl

/-- The operation that a bus read's offset decodes to is the dispatcher's read at its address. -/
theorem exec_decodeBusRead (off : Word) (s : State) :
    exec (decodeBusRead off) s = dispatchRead (busAddress s.slot off) s := by
  have hregion := regionAt_busAddress s.slot off
  rcases decodeBusRead_cases off with ⟨hv, hd⟩ | ⟨rfl, hd⟩ | ⟨hn, hd⟩
  · rw [hd, dispatchRead_of_regionAt (hregion.trans (if_pos hv))]
    rfl
  · rw [hd, dispatchRead_of_regionAt hregion]
    rfl
  · obtain ⟨hv, hs⟩ := (noWindow_iff off).1 hn
    rw [if_neg (by simp [hv]), if_neg hs] at hregion
    rw [hd, dispatchRead, hregion]
    rfl

/-- The operation that a bus write's offset decodes to is the dispatcher's write at its address. -/
theorem exec_decodeBusWrite (off : Word) (v : Byte) (s : State) :
    exec (decodeBusWrite off v) s = dispatchWrite (busAddress s.slot off) v s := by
  have hregion := regionAt_busAddress s.slot off
  rcases decodeBusWrite_cases off v with ⟨hv, hd⟩ | ⟨rfl, hd⟩ | ⟨hn, hd⟩
  · rw [hd, dispatchWrite_of_regionAt v (hregion.trans (if_pos hv))]
    rfl
  · rw [hd, dispatchWrite_of_regionAt v hregion]
    rfl
  · obtain ⟨hv, hs⟩ := (noWindow_iff off).1 hn
    rw [if_neg (by simp [hv]), if_neg hs] at hregion
    rw [hd, dispatchWrite, hregion]
    rfl

/-- Settles O29: a byte access through the dispatcher is its decoded operation, at the address that
the offset stands for. -/
theorem busAccessesMeetTheDispatcher : Obligations.BusAccessesMeetTheDispatcher := by
  intro s q hw hr
  refine ⟨fun hopc => ?_, fun hopc => ?_⟩
  · have hd : decode (q.encoded s.slot) = .ok (decodeBusRead (busOffset s.slot q.addr)) := by
      simp [Request.encoded, Request.f, Request.isBus, hopc]
    rw [perform_eq_exec hd fun _ => ⟨hw, hr⟩, exec_decodeBusRead, busAddress_busOffset]
  · have hd : decode (q.encoded s.slot) =
        .ok (decodeBusWrite (busOffset s.slot q.addr) q.side.data) := by
      simp [Request.encoded, Request.f, Request.isBus, hopc]
    rw [perform_eq_exec hd fun _ => ⟨hw, hr⟩, exec_decodeBusWrite, busAddress_busOffset]

/-! ### Reserved codes -/

/-- Settles O13: decoding stands before every other check (R119), and the step books its refusal. -/
theorem reservedCodeIsRefused : Obligations.ReservedCodeIsRefused := by
  intro s q rest hf hp hopc
  have hrefused : perform q (s.take rest) = .refused .reservedOpcode := by
    rw [perform, Request.encoded, decode_reserved hopc]
  rw [step_of_pending hf hp, serve, hrefused]
  rfl

/-! ### The Setup Register byte -/

/-- The mode is bits 1:0 of the low three bits (R70). -/
theorem setupMode_eq (v : Byte) : setupMode v = (v.extractLsb' 0 3).setWidth 2 := by
  refine BitVec.eq_of_getLsbD_eq fun i hi => ?_
  have hmask : ∀ j < 2, (0b11#8).getLsbD j = true := by decide
  simp only [setupMode, BitVec.getLsbD_setWidth, BitVec.getLsbD_and, BitVec.getLsbD_extractLsb']
  simp only [hmask i hi, hi, show i < 3 by omega, Nat.zero_add, decide_true, Bool.true_and,
    Bool.and_true]

/-- Text mode is bit 2 clear (R70). -/
theorem setupText_eq (v : Byte) : setupText v = !(v.extractLsb' 0 3).getLsbD 2 := by
  have hbit : 0b100#8 = BitVec.twoPow 8 2 := rfl
  rw [setupText, hbit, BitVec.and_twoPow, BitVec.getLsbD_extractLsb']
  cases v.getLsbD 2 with
  | false => rfl
  | true => rfl

/-- Settles O36: the mode and the text flag read nothing but bits 2:0. -/
theorem setupByteDecodesAsTabled : Obligations.SetupByteDecodesAsTabled := by
  intro v
  rw [setupMode_eq, setupText_eq]
  generalize v.extractLsb' 0 3 = bits
  revert bits
  decide

end Sys2Proof
end

section
/-! PROOFS. The bus family (40_bus_regions.md): the dispatcher and the direct region calls by the window
of the address, the reads and writes of the two regions, and R88's properties on bus requests. In each
part the rules stand before the statements that use them. -/

namespace Sys2Proof.Machine

/-! ### Which region an address selects (R78, R79) -/

/-- The windows of a slot are disjoint, so the order in which the dispatcher tries them does not
matter. -/
theorem regionAt_of_contains {slot : Slot} {r : RegionId} {addr : Word}
    (h : (window slot r).contains addr = true) : regionAt slot addr = some r := by
  cases hr : regionAt slot addr with
  | none =>
    have hnot := List.find?_eq_none.1 hr r (by cases r <;> decide)
    exact absurd h hnot
  | some r' =>
    have h' : (window slot r').contains addr = true :=
      List.find?_some (p := fun r => (window slot r).contains addr) hr
    rw [region_eq_of_contains h' h]

/-- An address whose offset is in neither window is outside the window of either region. -/
theorem not_contains_of_noWindow {slot : Slot} {addr : Word}
    (h : noWindow (busOffset slot addr) = true) (r : RegionId) :
    (window slot r).contains addr = false := by
  obtain ⟨hvram, hsetup⟩ := (noWindow_iff _).1 h
  cases r with
  | vram => rw [window_vram_contains, hvram]
  | setup => rw [window_setup_contains, beq_eq_false_iff_ne.2 hsetup]

theorem regionAt_of_noWindow {slot : Slot} {addr : Word}
    (h : noWindow (busOffset slot addr) = true) : regionAt slot addr = none := by
  obtain ⟨hvram, hsetup⟩ := (noWindow_iff _).1 h
  rw [← busAddress_busOffset slot addr, regionAt_busAddress, if_neg (by simp [hvram]), if_neg hsetup]

/-- The addresses just before and just after either window are in neither window. -/
theorem noWindow_of_bound {slot : Slot} {r : RegionId} {addr : Word}
    (h : addr = (window slot r).begin - 1 ∨
      addr = (window slot r).begin + BitVec.ofNat 32 (window slot r).size) :
    noWindow (busOffset slot addr) = true := by
  have hoff {off : Word} (hno : noWindow off = true) (ha : addr = busAddress slot off) :
      noWindow (busOffset slot addr) = true := by rw [ha, busOffset_busAddress, hno]
  cases r with
  | vram =>
    rcases h with h | h
    · exact hoff (off := 0xFFFFFFFF#32) (by decide) (h.trans (BitVec.sub_eq_add_neg ..))
    · exact hoff (off := 0x4400#32) (by decide) h
  | setup =>
    rcases h with h | h
    · exact hoff (off := 0xCBFF#32) (by decide)
        (h.trans ((BitVec.sub_eq_add_neg ..).trans (BitVec.add_assoc ..)))
    · exact hoff (off := 0xCC01#32) (by decide) (h.trans (BitVec.add_assoc ..))

/-! ### Direct region calls (R83) -/

/-- A byte-wide bus request that names a region is performed by that region's own operation. -/
theorem perform_eq_performDirect {q : Request} {r : RegionId} (hq : q.isBus = true)
    (hw : q.width = 1) (hr : q.region = some r) (s : State) :
    perform q s = performDirect r q s := by
  obtain ⟨i, hi⟩ := decode_bus_request hq s.slot
  simp [perform, hi, hq, hw, hr]

theorem perform_directRead {q : Request} {r : RegionId} (hopc : q.opc = 0x0#4) (hw : q.width = 1)
    (hr : q.region = some r) (s : State) : perform q s = readByte r q.addr s := by
  rw [perform_eq_performDirect (by simp [Request.isBus, hopc]) hw hr, performDirect, hopc,
    if_neg (by decide)]

theorem perform_directWrite {q : Request} {r : RegionId} (hopc : q.opc = 0x1#4) (hw : q.width = 1)
    (hr : q.region = some r) (s : State) : perform q s = writeByte r q.addr q.side.data s := by
  rw [perform_eq_performDirect (by simp [Request.isBus, hopc]) hw hr, performDirect, if_pos hopc]

/-- Settles O31: a region's operation is the dispatcher's where the dispatcher selects that region, and
it errs elsewhere. -/
theorem directRegionCallsAnswerForTheirOwnWindow :
    Obligations.DirectRegionCallsAnswerForTheirOwnWindow := by
  intro s q r hw hr
  refine ⟨fun hopc => ?_, fun hopc => ?_⟩
  · rw [perform_directRead hopc hw hr]
    split
    · rw [dispatchRead_of_regionAt (regionAt_of_contains ‹_›)]
    · exact readByte_of_not_contains (Bool.eq_false_of_not_eq_true ‹_›)
  · rw [perform_directWrite hopc hw hr]
    split
    · rw [dispatchWrite_of_regionAt _ (regionAt_of_contains ‹_›)]
    · exact writeByte_of_not_contains (Bool.eq_false_of_not_eq_true ‹_›)

/-! ### Reads and writes of the live buffer -/

/-- Writing the byte that stands there changes nothing, in a well-formed buffer. -/
theorem Memory.write_read_of_wf {m : Memory} {k : Nat} (hm : m.wf) (hk : k < vramSize) :
    m.write k (m.read k) = m := by
  refine Memory.ext_of_wf (Memory.wf_write hm hk) hm fun j => ?_
  by_cases h : j = k
  · rw [h, Memory.read_write_self_of_wf hm]
  · rw [Memory.read_write_other h]

/-- Settles O32: the live byte at an offset stays the constructed one while no operation writes it. -/
theorem vramReadReturnsTheLiveByte : Obligations.VramReadReturnsTheLiveByte := by
  refine ⟨fun s addr hoff => ?_, fun a slot off v hoff hv is t ms hno hrun => ?_⟩
  · exact exec_vramRd_of_inVram ((inVram_iff _).2 hoff) s
  · have hinit : (constructed a slot).live.read off.toNat = v := by
      rw [constructed, Memory.read_ofBytes hoff, List.getD_eq_getElem?_getD, hv, Option.getD_some]
    rw [exec_vramRd_of_inVram ((inVram_iff off).2 hoff), runOps_live_read hno hrun, hinit]
    rfl

/-- Settles O34: the write is one `Memory.write` at the offset. -/
theorem vramWriteStoresOneLiveByte : Obligations.VramWriteStoresOneLiveByte := by
  intro s off data hoff
  have hin : inVram off = true := (inVram_iff off).2 hoff
  refine ⟨_, exec_vramWr_of_inVram hin data s, rfl, fun hs => ?_, fun hs hstands => ?_,
    fun k hk => ?_⟩
  · exact Memory.read_write_self_of_wf hs.1
  · rw [State.answer_live, State.storeLive_live, ← hstands, Memory.write_read_of_wf hs.1 hoff]
  · rw [vram_offset hin] at hk
    exact Memory.read_write_other hk

/-! ### Reads and writes of the Setup Register -/

/-- Settles O33: the stored byte stays the constructed one while no operation writes it. -/
theorem setupReadReturnsTheStoredByte : Obligations.SetupReadReturnsTheStoredByte := by
  refine ⟨exec_setupRd, fun a slot is t ms hno hrun => ?_⟩
  have hinit : t.setupReg = a.setupInit := runOps_setupReg hno hrun
  rw [← hinit]
  exact exec_setupRd t

/-- Settles O35: the second write stores the byte and the mode that the first one did, and that nothing
else moves the mode is part of O24. -/
theorem setupWriteStoresTheByteAndSetsTheMode :
    Obligations.SetupWriteStoresTheByteAndSetsTheMode := by
  obtain ⟨honly, -⟩ := modeAxisAndTimingAxisAreIndependent
  exact ⟨fun s data => ⟨_, rfl, exec_setupWr data s, exec_setupWr data _, rfl, rfl⟩, honly⟩

/-! ### Bus requests at the address of an offset -/

/-- A bus read through the dispatcher is the operation its offset decodes to. -/
theorem perform_busRead (off : Word) (s : State) :
    perform { opc := 0x0, addr := busAddress s.slot off } s = exec (decodeBusRead off) s := by
  obtain ⟨hread, -⟩ := busAccessesMeetTheDispatcher s
    { opc := 0x0, addr := busAddress s.slot off } rfl rfl
  rw [hread rfl, exec_decodeBusRead]

/-- A bus write through the dispatcher is the operation its offset decodes to. -/
theorem perform_busWrite (off : Word) (v : Byte) (s : State) :
    perform { opc := 0x1, addr := busAddress s.slot off, side := { data := v } } s =
      exec (decodeBusWrite off v) s := by
  obtain ⟨-, hwrite⟩ := busAccessesMeetTheDispatcher s
    { opc := 0x1, addr := busAddress s.slot off, side := { data := v } } rfl rfl
  rw [hwrite rfl, exec_decodeBusWrite]

/-- A byte-wide bus read outside both windows errs, through the dispatcher and by a direct call, and
names the region called (R80, R83, R115). -/
theorem perform_read_of_noWindow {q : Request} {s : State} (hopc : q.opc = 0x0#4)
    (hw : q.width = 1) (hno : noWindow (busOffset s.slot q.addr) = true) :
    perform q s =
      .next (s.answer (.addressingError ⟨addressingErrorCode, q.addr, .read, q.region⟩) []) := by
  cases hr : q.region with
  | none =>
    obtain ⟨hread, -⟩ := busAccessesMeetTheDispatcher s q hw hr
    rw [hread hopc, dispatchRead, regionAt_of_noWindow hno]
    rfl
  | some r =>
    rw [perform_directRead hopc hw hr, readByte_of_not_contains (not_contains_of_noWindow hno r)]

/-- A byte-wide bus write outside both windows errs, through the dispatcher and by a direct call, and
names the region called (R80, R83, R115). -/
theorem perform_write_of_noWindow {q : Request} {s : State} (hopc : q.opc = 0x1#4)
    (hw : q.width = 1) (hno : noWindow (busOffset s.slot q.addr) = true) :
    perform q s =
      .next (s.answer (.addressingError ⟨addressingErrorCode, q.addr, .write, q.region⟩) []) := by
  cases hr : q.region with
  | none =>
    obtain ⟨-, hwrite⟩ := busAccessesMeetTheDispatcher s q hw hr
    rw [hwrite hopc, dispatchWrite, regionAt_of_noWindow hno]
    rfl
  | some r =>
    rw [perform_directWrite hopc hw hr, writeByte_of_not_contains (not_contains_of_noWindow hno r)]

/-! ### R88's properties -/

/-- The mode is the byte modulo 4 (R70). -/
theorem setupMode_toNat (v : Byte) : (setupMode v).toNat = v.toNat % 4 := by
  rw [setupMode_eq, BitVec.toNat_setWidth, BitVec.extractLsb'_toNat, Nat.shiftRight_zero]
  omega

/-- Text mode is bit 2 of the byte clear (R70). -/
theorem setupText_eq_not_getLsbD (v : Byte) : setupText v = !v.getLsbD 2 := by
  rw [setupText_eq, BitVec.getLsbD_extractLsb']
  simp

/-- No operation changes the slot (R18). -/
theorem exec_next_slot {i : Instr} {s t : State} (h : exec i s = .next t) : t.slot = s.slot := by
  rcases exec_next h with ⟨a, rfl⟩ | ⟨off, v, -, -, rfl⟩ | ⟨v, -, rfl⟩ | ⟨f, n, -, ht⟩ |
    ⟨b, u, e, -, rfl⟩
  · rfl
  · rfl
  · rfl
  · obtain ⟨-, -, rfl⟩ := execTick_next.1 ht
    rfl
  · rfl

theorem runOps_slot {is : List Instr} {s t : State} {ms : List Msg}
    (h : runOps is s = some (t, ms)) : t.slot = s.slot :=
  runOps_keeps (P := fun u => u.slot = s.slot) h rfl
    fun _ _ _ _ hv hu => (exec_next_slot hv).trans hu

/-- A byte written on the bus in the Video Memory window is read back on the bus, whatever operations
that do not write at its offset come between. -/
theorem perform_busRead_after_busWrite {s : State} {off : Word} (hs : s.canonical)
    (hin : inVram off = true) (v : Byte) :
    ∃ t, perform { opc := 0x1, addr := busAddress s.slot off, side := { data := v } } s = .next t ∧
      ∀ (is : List Instr) (u : State) (ms : List Msg),
        (∀ w, Instr.vramWr off w ∉ is) → runOps is t = some (u, ms) →
        perform { opc := 0x0, addr := busAddress s.slot off } u =
          .next (u.answer (.byte v) []) := by
  refine ⟨(s.storeLive off.toNat v).answer .ok [], ?_, fun is u ms hno hrun => ?_⟩
  · rw [perform_busWrite, decodeBusWrite_of_inVram hin, exec_vramWr_of_inVram hin]
  · have hslot : u.slot = s.slot :=
      runOps_slot (s := (s.storeLive off.toNat v).answer .ok []) hrun
    have hbyte : u.live.read off.toNat = v :=
      (runOps_live_read hno hrun).trans (Memory.read_write_self_of_wf hs.1)
    rw [← hslot, perform_busRead, decodeBusRead_of_inVram hin, exec_vramRd_of_inVram hin, hbyte]

/-- Settles O37: register decode by the bits of the byte, buffer fidelity by the write and read of one
offset, bounds rejection by the offsets of the four bounds. -/
theorem busFamilyPropertiesOfTheSource : Obligations.BusFamilyPropertiesOfTheSource := by
  refine ⟨fun s v => ?_, fun s k v hs hk => ?_, fun s v r via addr haddr _ => ?_⟩
  · exact ⟨_, (perform_busWrite setupOffset v s).trans (exec_setupWr v s), setupMode_toNat v,
      setupText_eq_not_getLsbD v⟩
  · have hin : inVram (BitVec.ofNat 32 k) = true := by
      rw [inVram_iff, BitVec.toNat_ofNat]
      omega
    exact perform_busRead_after_busWrite hs hin v
  · have hno : noWindow (busOffset s.slot addr) = true := noWindow_of_bound haddr
    exact ⟨perform_read_of_noWindow rfl rfl hno, perform_write_of_noWindow rfl rfl hno⟩

end Sys2Proof.Machine
end

section
/-! PROOFS. The tick and the vsync interrupt (41_tick_vsync.md): the state a TICK leaves, the law of each
policy, and sequences of ticks at one clock rate. In each part the rules stand before the statements that
use them. -/

namespace Sys2Proof.Machine

/-! ### The state a TICK leaves -/

/-- The crossings that a TICK makes in `s` (R92, R93). -/
def State.tickCrossings (s : State) (clockHz n : Nat) : Nat :=
  crossings s.firePolicy (s.cnt + n) (threshold s.refreshHz clockHz)

/-- The state that a TICK leaves where it completes (R91). -/
def State.ticked (s : State) (clockHz n : Nat) : State :=
  (s.snapshot (s.cnt + n) (s.tickCrossings clockHz n) (threshold s.refreshHz clockHz)).answer .ok
    (s.vsyncMsgs (s.tickCrossings clockHz n))

/-- A TICK completes exactly if the threshold is not 0 and the sum fits the counter (R90, R97). -/
theorem exec_tick_next {clockHz n : Nat} {s t : State} :
    exec (.tick clockHz n) s = .next t ↔
      threshold s.refreshHz clockHz ≠ 0 ∧ s.cnt + n ≤ cntMax s.cntW ∧ t = s.ticked clockHz n :=
  execTick_next

theorem exec_tick_eq_ticked {clockHz n : Nat} {s : State} (hT : threshold s.refreshHz clockHz ≠ 0)
    (hc : s.cnt + n ≤ cntMax s.cntW) : exec (.tick clockHz n) s = .next (s.ticked clockHz n) :=
  exec_tick_next.2 ⟨hT, hc, rfl⟩

theorem threshold_ne_zero {hz clockHz : Nat} (h : 0 < hz) (hle : hz ≤ clockHz) :
    threshold hz clockHz ≠ 0 :=
  fun h0 => absurd ((threshold_eq_zero_iff h clockHz).1 h0) (Nat.not_lt.2 hle)

/-- Settles O16: the threshold is 0 exactly below the refresh rate, and it is tested first (R119). -/
theorem tickFaultsExactlyAsListed : Obligations.TickFaultsExactlyAsListed := by
  intro s clockHz n hz
  refine ⟨fun hlt => ?_, fun hle hover => ?_, fun hle hfits => ?_⟩
  · exact execTick_fault.2 (.inl ⟨(threshold_eq_zero_iff hz clockHz).2 hlt, rfl⟩)
  · exact execTick_fault.2 (.inr ⟨threshold_ne_zero hz hle, hover, rfl⟩)
  · exact ⟨_, exec_tick_eq_ticked (threshold_ne_zero hz hle) hfits⟩

/-! ### The law of each policy -/

theorem State.tickCrossings_singleFire {s : State} (hp : s.firePolicy = .singleFire)
    (clockHz n : Nat) :
    s.tickCrossings clockHz n = if threshold s.refreshHz clockHz ≤ s.cnt + n then 1 else 0 := by
  rw [tickCrossings, hp, crossings]

theorem State.tickCrossings_perCrossing {s : State} (hp : s.firePolicy = .perCrossing)
    (clockHz n : Nat) :
    s.tickCrossings clockHz n = (s.cnt + n) / threshold s.refreshHz clockHz := by
  rw [tickCrossings, hp, crossings]

/-- The counter after a TICK, and the cycles its crossings took (R91). -/
theorem State.ticked_cnt_add (s : State) (clockHz n : Nat) :
    (s.ticked clockHz n).cnt + s.tickCrossings clockHz n * threshold s.refreshHz clockHz =
      s.cnt + n :=
  Nat.sub_add_cancel (crossings_mul_le ..)

theorem State.vsyncMsgs_zero (s : State) : s.vsyncMsgs 0 = [] := ite_self _

theorem State.vsyncMsgs_one (s : State) :
    s.vsyncMsgs 1 = if s.vsyncEn then [irqMsg s.slot] else [] := rfl

/-- Settles O42: whether the sum reaches the threshold decides the one crossing (R92). -/
theorem tickUnderSingleFire : Obligations.TickUnderSingleFire := by
  intro s clockHz n hp hz hle hc
  rw [exec_tick_eq_ticked (threshold_ne_zero hz hle) hc, State.ticked,
    State.tickCrossings_singleFire hp]
  split
  · rw [State.vsyncMsgs_one, State.snapshot, residue, Nat.one_mul]
    rfl
  · rw [State.vsyncMsgs_zero, State.snapshot, residue, Nat.zero_mul]
    rfl

/-- Settles O43: `(cnt + n) div T` crossings leave the remainder (R93). -/
theorem tickUnderPerCrossing : Obligations.TickUnderPerCrossing := by
  intro s clockHz n hp hz hle hc
  have hT := threshold_ne_zero hz hle
  have hcross : 1 ≤ (s.cnt + n) / threshold s.refreshHz clockHz ↔
      threshold s.refreshHz clockHz ≤ s.cnt + n := crossings_pos_iff (p := .perCrossing) hT
  rw [exec_tick_eq_ticked hT hc, State.ticked, State.tickCrossings_perCrossing hp]
  simp only [State.snapshot, State.answer, State.vsyncMsgs, residue, hcross, Nat.mod_eq_sub_div_mul]

/-- Settles O44: a crossing copies the live buffer whole, and only a TICK writes the exposed one. -/
theorem crossingTickCopiesTheWholeLiveBuffer : Obligations.CrossingTickCopiesTheWholeLiveBuffer := by
  refine ⟨fun s t clockHz n h => ?_, fun i s t h hne => ?_⟩
  · obtain ⟨k, hk, -, hnone, hcopy⟩ := execTick_crossings h
    refine ⟨fun hle i _ => by rw [hcopy (hk.2 hle)], fun hlt => (hnone ?_).1⟩
    exact Nat.lt_one_iff.1 (Nat.not_le.1 fun h1 => Nat.not_le.2 hlt (hk.1 h1))
  · rcases exec_next_timing h with ⟨f, n, hi, -⟩ | ⟨-, hexposed, -⟩
    · exact ⟨f, n, hi⟩
    · exact absurd hexposed hne

/-- With `vsyncEn` every crossing signals (R95, R96). -/
theorem State.vsyncMsgs_eq_nil_iff {s : State} (h : s.vsyncEn = true) (k : Nat) :
    s.vsyncMsgs k = [] ↔ k = 0 := by
  simp [vsyncMsgs, h]

/-- Settles O45: a TICK reads `vsyncEn` for its messages only. -/
theorem vsyncEnableGatesOnlyTheMessages : Obligations.VsyncEnableGatesOnlyTheMessages := by
  intro s t clockHz n hen h
  obtain ⟨hT, hc, rfl⟩ := exec_tick_next.1 h
  have hcross : 1 ≤ s.tickCrossings clockHz n ↔ threshold s.refreshHz clockHz ≤ s.cnt + n :=
    crossings_pos_iff hT
  refine ⟨exec_tick_next.2 ⟨hT, hc, rfl⟩, ?_⟩
  rw [State.ticked, State.answer_events, State.vsyncMsgs_eq_nil_iff hen]
  omega

/-! ### The counter below the threshold -/

/-- A TICK leaves the counter below the threshold if it makes every crossing, or has but one to make. -/
theorem State.ticked_cnt_lt {s : State} {clockHz n : Nat} (hT : threshold s.refreshHz clockHz ≠ 0)
    (h : s.firePolicy = .perCrossing ∨ s.cnt + n < 2 * threshold s.refreshHz clockHz) :
    (s.ticked clockHz n).cnt < threshold s.refreshHz clockHz := by
  have hcnt := s.ticked_cnt_add clockHz n
  cases hp : s.firePolicy with
  | perCrossing =>
    rw [State.tickCrossings_perCrossing hp] at hcnt
    have hdiv := Nat.mod_add_div' (s.cnt + n) (threshold s.refreshHz clockHz)
    have hmod := Nat.mod_lt (s.cnt + n) (Nat.pos_of_ne_zero hT)
    omega
  | singleFire =>
    have hlt := h.resolve_left (by simp [hp])
    rw [State.tickCrossings_singleFire hp] at hcnt
    split at hcnt
    · omega
    · omega

/-- From a counter below the threshold, a TICK of at most the threshold completes, at a rate that fits:
the sum is below twice the threshold (R97). -/
theorem exec_tick_of_usage {s : State} {clockHz n : Nat} (hrate : s.rateFits clockHz)
    (hcnt : s.cnt < threshold s.refreshHz clockHz) (hn : n ≤ threshold s.refreshHz clockHz) :
    exec (.tick clockHz n) s = .next (s.ticked clockHz n) ∧
      (s.ticked clockHz n).cnt < threshold s.refreshHz clockHz := by
  have hmax : 2 * threshold s.refreshHz clockHz ≤ cntMax s.cntW :=
    Nat.le_sub_one_of_lt hrate.two_threshold_lt
  have hT : threshold s.refreshHz clockHz ≠ 0 := Nat.ne_zero_of_lt hcnt
  exact ⟨exec_tick_eq_ticked hT (by omega), State.ticked_cnt_lt hT (.inr (by omega))⟩

/-- Settles O46, under both policies at once. -/
theorem usagePremiseRulesOutOverflow : Obligations.UsagePremiseRulesOutOverflow :=
  fun _ _ _ hrate hcnt hn => ⟨_, exec_tick_of_usage hrate hcnt hn⟩

/-- Settles O47: one crossing takes one threshold off, so at least one more is left, and the residue is
no more than the sum that fitted the counter. -/
theorem residueCrossesAgainWithNoCycles : Obligations.ResidueCrossesAgainWithNoCycles := by
  intro s t clockHz n hp hsum h
  obtain ⟨hT, hc, rfl⟩ := exec_tick_next.1 h
  have hcnt := s.ticked_cnt_add clockHz n
  rw [State.tickCrossings_singleFire hp, if_pos (by omega), Nat.one_mul] at hcnt
  have hres : threshold s.refreshHz clockHz ≤ (s.ticked clockHz n).cnt := by omega
  have hk : (s.ticked clockHz n).tickCrossings clockHz 0 = 1 :=
    (State.tickCrossings_singleFire (s := s.ticked clockHz n) hp clockHz 0).trans (if_pos hres)
  refine ⟨hres, _, exec_tick_eq_ticked (s := s.ticked clockHz n) hT ?_, ?_, ?_⟩
  · show (s.ticked clockHz n).cnt + 0 ≤ cntMax s.cntW
    omega
  · rw [State.ticked, hk]
    rfl
  · have hcnt' := (s.ticked clockHz n).ticked_cnt_add clockHz 0
    rw [hk, Nat.one_mul] at hcnt'
    exact Nat.eq_sub_of_add_eq hcnt'

/-! ### Sequences of ticks -/

/-- `n` cycles pass from `s` to `t` with `k` crossings of the threshold `T` and the messages `ms`: each
crossing takes `T` off the counter, copies the live buffer and signals (R91, R94, R96). -/
structure State.Passes (s : State) (T n k : Nat) (t : State) (ms : List Msg) : Prop where
  cnt : t.cnt + k * T = s.cnt + n
  exposed : t.exposed = if 1 ≤ k then s.live else s.exposed
  msgs : ms = s.vsyncMsgs k
  live : t.live = s.live
  vsyncEn : t.vsyncEn = s.vsyncEn
  slot : t.slot = s.slot
  refreshHz : t.refreshHz = s.refreshHz

theorem State.vsyncMsgs_append (s : State) (j k : Nat) :
    s.vsyncMsgs j ++ s.vsyncMsgs k = s.vsyncMsgs (j + k) := by
  unfold vsyncMsgs
  split
  · exact List.replicate_append_replicate
  · rfl

theorem State.passes_refl (s : State) (T : Nat) : s.Passes T 0 0 s [] where
  cnt := by simp
  exposed := rfl
  msgs := s.vsyncMsgs_zero.symm
  live := rfl
  vsyncEn := rfl
  slot := rfl
  refreshHz := rfl

theorem State.passes_ticked (s : State) (clockHz n : Nat) :
    s.Passes (threshold s.refreshHz clockHz) n (s.tickCrossings clockHz n) (s.ticked clockHz n)
      (s.ticked clockHz n).events where
  cnt := s.ticked_cnt_add clockHz n
  exposed := rfl
  msgs := rfl
  live := rfl
  vsyncEn := rfl
  slot := rfl
  refreshHz := rfl

/-- Cycles, crossings and messages add up. -/
theorem State.Passes.trans {s u t : State} {T n m j k : Nat} {ms ms' : List Msg}
    (h : s.Passes T n j u ms) (h' : u.Passes T m k t ms') :
    s.Passes T (n + m) (j + k) t (ms ++ ms') where
  cnt := by
    have := h.cnt
    have := h'.cnt
    rw [Nat.add_mul]
    omega
  exposed := by
    rw [h'.exposed, h.live, h.exposed]
    by_cases hk : 1 ≤ k
    · rw [if_pos hk, if_pos (Nat.le_add_left_of_le hk)]
    · obtain rfl : k = 0 := by omega
      rfl
  msgs := by rw [h'.msgs, vsyncMsgs, h.vsyncEn, h.slot, ← vsyncMsgs, h.msgs, vsyncMsgs_append]
  live := h'.live.trans h.live
  vsyncEn := h'.vsyncEn.trans h.vsyncEn
  slot := h'.slot.trans h.slot
  refreshHz := h'.refreshHz.trans h.refreshHz

/-- Where the counter ends below the threshold, every period passed is a crossing. -/
theorem State.Passes.div_mod {s t : State} {T n k : Nat} {ms : List Msg} (h : s.Passes T n k t ms)
    (hcnt : t.cnt < T) : (s.cnt + n) / T = k ∧ (s.cnt + n) % T = t.cnt :=
  (Nat.div_mod_unique (Nat.zero_lt_of_lt hcnt)).2
    ⟨by rw [Nat.mul_comm T k]; exact h.cnt, hcnt⟩

/-- Ticks that complete pass their total, under either policy. -/
theorem runOps_ticks_passes {clockHz : Nat} {ns : List Nat} {s t : State} {ms : List Msg}
    (h : runOps (ticks clockHz ns) s = some (t, ms)) :
    ∃ k, s.Passes (threshold s.refreshHz clockHz) (totalCycles ns) k t ms := by
  induction ns generalizing s ms with
  | nil =>
    cases h
    exact ⟨0, State.passes_refl _ _⟩
  | cons n ns ih =>
    obtain ⟨u, ms', hu, hrun, rfl⟩ := runOps_cons_eq_some.1 h
    obtain ⟨-, -, rfl⟩ := exec_tick_next.1 hu
    obtain ⟨k, hk⟩ := ih hrun
    exact ⟨_, by simpa [totalCycles] using (s.passes_ticked clockHz n).trans hk⟩

/-- Ticks complete if a property of the state and the ticks still to come lets the next one complete and
is kept by it. -/
theorem runOps_ticks_complete {P : List Nat → State → Prop} {clockHz : Nat} {ns : List Nat}
    {s : State} (hs : P ns s)
    (hstep : ∀ n ns u, P (n :: ns) u →
      exec (.tick clockHz n) u = .next (u.ticked clockHz n) ∧ P ns (u.ticked clockHz n)) :
    ∃ t ms, runOps (ticks clockHz ns) s = some (t, ms) ∧ P [] t := by
  induction ns generalizing s with
  | nil => exact ⟨s, [], rfl, hs⟩
  | cons n ns ih =>
    obtain ⟨hexec, hP⟩ := hstep n ns s hs
    obtain ⟨t, ms, hrun, ht⟩ := ih hP
    exact ⟨t, _, runOps_cons_eq_some.2 ⟨_, ms, hexec, hrun, rfl⟩, ht⟩

/-- Ticks that end below the threshold leave the remainder of the sum and have made a crossing for every
period in it. -/
theorem runOps_ticks_div_mod {clockHz : Nat} {ns : List Nat} {s t : State} {ms : List Msg}
    (h : runOps (ticks clockHz ns) s = some (t, ms))
    (hcnt : t.cnt < threshold t.refreshHz clockHz) :
    s.Passes (threshold s.refreshHz clockHz) (totalCycles ns)
        ((s.cnt + totalCycles ns) / threshold s.refreshHz clockHz) t ms ∧
      t.cnt = (s.cnt + totalCycles ns) % threshold s.refreshHz clockHz := by
  obtain ⟨k, hk⟩ := runOps_ticks_passes h
  rw [hk.refreshHz] at hcnt
  obtain ⟨rfl, hmod⟩ := hk.div_mod hcnt
  exact ⟨hk, hmod.symm⟩

/-- PerCrossing ticks still to come fit the counter together, and with none to come it is below the
threshold. -/
def State.totalFits (clockHz : Nat) (ns : List Nat) (s : State) : Prop :=
  s.firePolicy = .perCrossing ∧ threshold s.refreshHz clockHz ≠ 0 ∧
    s.cnt + totalCycles ns ≤ cntMax s.cntW ∧ (ns = [] → s.cnt < threshold s.refreshHz clockHz)

theorem State.totalFits_ticked {clockHz n : Nat} {ns : List Nat} {s : State}
    (h : s.totalFits clockHz (n :: ns)) :
    exec (.tick clockHz n) s = .next (s.ticked clockHz n) ∧
      (s.ticked clockHz n).totalFits clockHz ns := by
  obtain ⟨hp, hT, hc, -⟩ := h
  have hcons : totalCycles (n :: ns) = n + totalCycles ns := List.sum_cons
  have hcnt := s.ticked_cnt_add clockHz n
  refine ⟨exec_tick_eq_ticked hT (by omega), hp, hT, ?_, fun _ => ticked_cnt_lt hT (.inl hp)⟩
  show (s.ticked clockHz n).cnt + totalCycles ns ≤ cntMax s.cntW
  omega

/-- Settles O48: the sequence and the one TICK pass the same total and both end below the threshold, so
both make one crossing for every period in it. -/
theorem ticksAddUpUnderPerCrossing : Obligations.TicksAddUpUnderPerCrossing := by
  intro s clockHz total ns hp hz hle hne htotal hc
  subst htotal
  have hT := threshold_ne_zero hz hle
  obtain ⟨t, ms, hrun, -, -, -, hend⟩ := runOps_ticks_complete (P := State.totalFits clockHz)
    ⟨hp, hT, hc, fun h => absurd h hne⟩ fun _ _ _ => State.totalFits_ticked
  obtain ⟨hpass, hcnt⟩ := runOps_ticks_div_mod hrun (hend rfl)
  have hone := s.passes_ticked clockHz (totalCycles ns)
  rw [State.tickCrossings_perCrossing hp] at hone
  obtain ⟨-, hmod⟩ := hone.div_mod (State.ticked_cnt_lt hT (.inl hp))
  exact ⟨t, _, ms, hrun, exec_tick_eq_ticked hT hc, hcnt.trans hmod,
    hpass.exposed.trans hone.exposed.symm, hpass.msgs.trans hone.msgs.symm⟩

/-- The usage premise of R97 for the ticks still to come. -/
def State.usage (clockHz : Nat) (ns : List Nat) (s : State) : Prop :=
  s.rateFits clockHz ∧ s.cnt < threshold s.refreshHz clockHz ∧
    ∀ n ∈ ns, n ≤ threshold s.refreshHz clockHz

theorem State.usage_ticked {clockHz n : Nat} {ns : List Nat} {s : State}
    (h : s.usage clockHz (n :: ns)) :
    exec (.tick clockHz n) s = .next (s.ticked clockHz n) ∧
      (s.ticked clockHz n).usage clockHz ns := by
  obtain ⟨hrate, hcnt, hshort⟩ := h
  obtain ⟨hn, hns⟩ := List.forall_mem_cons.1 hshort
  obtain ⟨hexec, hcnt'⟩ := exec_tick_of_usage hrate hcnt hn
  exact ⟨hexec, hrate, hcnt', hns⟩

/-- Settles O49: the usage premise holds to the end, so every period in the total was a crossing. -/
theorem shortTicksAddUpUnderSingleFire : Obligations.ShortTicksAddUpUnderSingleFire := by
  intro s clockHz ns _ hrate hcnt hshort
  obtain ⟨t, ms, hrun, -, hend, -⟩ := runOps_ticks_complete (P := State.usage clockHz)
    ⟨hrate, hcnt, hshort⟩ fun _ _ _ => State.usage_ticked
  obtain ⟨hpass, hmod⟩ := runOps_ticks_div_mod hrun hend
  exact ⟨t, by rw [hrun, hpass.msgs, State.vsyncMsgs], hmod⟩

/-- Settles O50: the one long TICK makes its one crossing (R92), the two short ones add up (O49). -/
theorem longTickBreaksAdditivityUnderSingleFire :
    Obligations.LongTickBreaksAdditivityUnderSingleFire := by
  intro s clockHz n nn hp hen h0 hrate hle hn hnn
  have hmax : 2 * threshold s.refreshHz clockHz ≤ cntMax s.cntW :=
    Nat.le_sub_one_of_lt hrate.two_threshold_lt
  have hT : 0 < threshold s.refreshHz clockHz :=
    Nat.pos_of_ne_zero (threshold_ne_zero (Nat.lt_of_lt_of_le Nat.two_pos hrate.2.2) hle)
  have hlong : exec (.tick clockHz nn) s = .next (s.ticked clockHz nn) :=
    exec_tick_eq_ticked hT.ne' (by omega)
  have hmsg : (s.ticked clockHz nn).events = [irqMsg s.slot] := by
    rw [(s.passes_ticked clockHz nn).msgs, State.tickCrossings_singleFire hp, if_pos (by omega),
      State.vsyncMsgs_one, if_pos hen]
  obtain ⟨u, hshort, -⟩ := shortTicksAddUpUnderSingleFire s clockHz [n, n] hp hrate (by omega)
    (by simp [hn])
  have htwo : (s.cnt + totalCycles [n, n]) / threshold s.refreshHz clockHz = 2 := by
    have hsum : s.cnt + totalCycles [n, n] = 2 * threshold s.refreshHz clockHz := by
      simp [totalCycles, h0, hn, Nat.two_mul]
    rw [hsum, Nat.mul_div_cancel _ hT]
  rw [if_pos hen, htwo] at hshort
  exact ⟨_, u, runOps_cons_eq_some.2 ⟨_, [], hlong, rfl, by rw [hmsg, List.append_nil]⟩, hshort⟩

end Sys2Proof.Machine
end

section
/-! PROOFS. The host ports (42_host_ports.md): the configuration port, the mode and identity accessors,
and the exposed buffer before the first crossing. In each part the rules stand before the statements
that use them. -/

namespace Sys2Proof.Machine

/-! ### The configuration port and the constant accessors -/

/-- Settles O52: CONFIG_WR's arm is `setFlags`, answered with ok. -/
theorem configWriteSetsTheThreeFlags : Obligations.ConfigWriteSetsTheThreeFlags :=
  fun _ _ _ _ => rfl

/-- Settles O54: the class, builder, device and version constants (R2), whatever the state is. -/
theorem identityReadReturnsTheTuple : Obligations.IdentityReadReturnsTheTuple :=
  fun _ => rfl

/-- Settles O57: the windows of R77 at the device's slot, in the order of R78. -/
theorem regionListReadReturnsTheTwoWindows : Obligations.RegionListReadReturnsTheTwoWindows :=
  fun _ => rfl

/-! ### The mode accessors -/

/-- TEXT_RD answers `isTextMode` (R103). -/
theorem exec_textRd (s : State) : exec .textRd s = .next (s.answer (.flag s.isTextMode) []) := rfl

/-- Settles O53: each accessor answers its own field, and construction sets text mode without reading
`SETUP_INIT` (R31). -/
theorem modeAccessorsReturnTheCurrentMode : Obligations.ModeAccessorsReturnTheCurrentMode := by
  refine ⟨fun s => ⟨rfl, exec_textRd s, rfl, rfl⟩, fun a slot => ?_⟩
  have htext : (constructed a slot).isTextMode = true := rfl
  rw [exec_textRd, htext, State.answer]

/-! ### One byte of the exposed buffer -/

/-- An index in the buffer reads its byte (R108). -/
theorem readExposed_of_lt {k : Word} (h : k.toNat < vramSize) (s : State) :
    readExposed k s = .next (s.answer (.byte (s.exposed.read k.toNat)) []) := if_pos h

/-- Settles O56: EXPOSED_RDB reads inside the buffer, and EXPOSED_RDB_NOWIN errs whatever its index. -/
theorem exposedByteReadAnswersItsByteOrAnError :
    Obligations.ExposedByteReadAnswersItsByteOrAnError :=
  fun s _ => ⟨fun hk => readExposed_of_lt hk s, fun _ => rfl⟩

/-! ### The whole exposed buffer -/

theorem exec_exposedRd (s : State) :
    exec .exposedRd s = .next (s.answer (.buffer s.exposed) []) := rfl

/-- The sequence of a buffer's bytes has byte `k` at index `k` (R67). -/
theorem Memory.getElem?_bytes (m : Memory) {k : Nat} (h : k < vramSize) :
    m.bytes[k]? = some (m.read k) := by
  simp [Memory.bytes, h]

/-- A buffer without cells is `VRAM_SIZE` fill bytes. -/
theorem Memory.bytes_nil : Memory.bytes [] = List.replicate vramSize Memory.fill :=
  List.eq_replicate_iff.2 ⟨Memory.length_bytes [], by simp [Memory.bytes]⟩

/-- An operation that makes no crossing leaves the exposed buffer: a TICK copies only at one (R94). -/
theorem exec_next_exposed_of_not_crosses {i : Instr} {s t : State} (hi : crosses s i = false)
    (h : exec i s = .next t) : t.exposed = s.exposed := by
  rcases exec_next_timing h with ⟨f, n, rfl, ht⟩ | ⟨-, hexposed, -⟩
  · have hlt : ¬ threshold s.refreshHz f ≤ s.cnt + n := of_decide_eq_false hi
    obtain ⟨k, hk, -, hnone, -⟩ := execTick_crossings ht
    have hk0 : k = 0 := Nat.eq_zero_of_not_pos fun hpos => hlt (hk.1 hpos)
    exact (hnone hk0).1
  · exact hexposed

/-- A run without a crossing leaves the exposed buffer. -/
theorem runWithoutCrossing_exposed {is : List Instr} {s t : State}
    (h : runWithoutCrossing is s = some t) : t.exposed = s.exposed := by
  induction is generalizing s with
  | nil => cases h; rfl
  | cons i is ih =>
    obtain ⟨hi, u, hu, hrun⟩ := runWithoutCrossing_cons.1 h
    exact (ih hrun).trans (exec_next_exposed_of_not_crosses hi hu)

/-- Settles O55: the answer is the exposed buffer, which construction leaves without cells and nothing
but a crossing writes. -/
theorem exposedReadReturnsTheWholeSnapshot : Obligations.ExposedReadReturnsTheWholeSnapshot := by
  refine ⟨fun s => ⟨s.exposed, exec_exposedRd s, Memory.length_bytes _,
    fun k hk => Memory.getElem?_bytes _ hk⟩, fun a slot is t h => ?_⟩
  have hempty : t.exposed = [] := runWithoutCrossing_exposed h
  exact ⟨t.exposed, exec_exposedRd t, hempty ▸ Memory.bytes_nil⟩

end Sys2Proof.Machine
end

section
/-! PROOFS. Faults and refusals (60_exceptions.md): a TICK that faults, the device after a fault, and the
two refusals of construction. In each part the rules stand before the statement that uses them. -/

namespace Sys2Proof.Machine

/-! ### A faulting TICK and the device after it -/

/-- A request that decodes to TICK is not of format BUS: the bus codes decode to bus operations (R59). -/
theorem isBus_eq_false_of_decode_tick {q : Request} {slot : Slot} {clockHz n : Nat}
    (hd : decode (q.encoded slot) = .ok (.tick clockHz n)) : q.isBus = false := by
  refine Bool.eq_false_of_not_eq_true fun hq => ?_
  have hopc : q.opc = 0x0#4 ∨ q.opc = 0x1#4 := by simpa [Request.isBus] using hq
  rw [Request.encoded] at hd
  rcases hopc with h | h
  · rw [h, decode_busRead] at hd
    rcases decodeBusRead_cases (q.f slot) with ⟨-, hi⟩ | ⟨-, hi⟩ | ⟨-, hi⟩ <;>
      exact nomatch hi.symm.trans (Except.ok.inj hd)
  · rw [h, decode_busWrite] at hd
    rcases decodeBusWrite_cases (q.f slot) q.side.data with ⟨-, hi⟩ | ⟨-, hi⟩ | ⟨-, hi⟩ <;>
      exact nomatch hi.symm.trans (Except.ok.inj hd)

/-- Whether a TICK faults does not depend on the requests that wait. -/
theorem exec_tick_fault_take {clockHz n : Nat} {s : State} {f : Fault}
    (h : exec (.tick clockHz n) s = .fault f) (rest : List Request) :
    exec (.tick clockHz n) (s.take rest) = .fault f :=
  execTick_fault.2 ((execTick_fault (s := s)).1 h)

/-- Settles O15: the step performs the decoded TICK (O9), which faults with its request taken from the
list as well, and the outcome is booked on the device as it was. -/
theorem faultingTickChangesNoDeviceState : Obligations.FaultingTickChangesNoDeviceState := by
  intro s q rest clockHz n f hf hp hd hfault
  have hbus : q.isBus = false := isBus_eq_false_of_decode_tick hd
  have hexec : exec (.tick clockHz n) { s with pending := rest } = .fault f :=
    exec_tick_fault_take hfault rest
  rw [stepPerformsTheDecodedOperation s q rest _ hf hp hd (by simp [hbus]), hexec]

/-- Settles O11: the faulted case of `step`, whatever requests wait. -/
theorem faultedDevicePerformsNothing : Obligations.FaultedDevicePerformsNothing := by
  intro s f hf
  rw [step, hf]

/-! ### The refusals of construction -/

/-- The numbers that name no slot are those above 3 (R133). -/
theorem slotOf_eq_none_iff (n : Nat) : slotOf n = none ↔ 3 < n := by
  match n with
  | 0 | 1 | 2 | 3 => decide
  | n + 4 => exact iff_of_true rfl (by omega)

/-- Settles O59: the slot is checked before the allocation. -/
theorem constructionRefusesAnInvalidSlot : Obligations.ConstructionRefusesAnInvalidSlot := by
  refine fun a => ⟨fun hslot => ?_, fun hslot halloc => ?_⟩
  · rw [construct, (slotOf_eq_none_iff a.slot).2 hslot]
  · have hsome : slotOf a.slot ≠ none := fun h =>
      absurd ((slotOf_eq_none_iff a.slot).1 h) (Nat.not_lt.2 hslot)
    obtain ⟨slot, hs⟩ := Option.ne_none_iff_exists'.1 hsome
    simp [construct, hs, halloc]

end Sys2Proof.Machine
end

section
/-! PROOFS. The host's word for an opcode-table row (log entry 14 of SPEC.md): the request that the
loading convention puts first is the next one performed. -/

namespace Sys2Proof.Machine

/-- The table's word names the operation that the decoder reads from its key and side operands. -/
theorem decodeTableWord_eq_some_iff {nbits w : Nat} {i : Instr} :
    decodeTableWord nbits w = some i ↔ decode (tableWord nbits w) = .ok i := by
  rw [decodeTableWord]
  cases decode (tableWord nbits w) with
  | ok j => simp
  | error e => simp

/-- A request that stands for a key is of one byte and names no region, so that a bus request among
them goes through the dispatcher (R35, R80). -/
theorem ofEncoded_width_region (slot : Slot) (e : Encoded) :
    (Request.ofEncoded slot e).width = 1 ∧ (Request.ofEncoded slot e).region = none := ⟨rfl, rfl⟩

/-- With the table word's request taken from the list again, only the cleared fault is left of
`withFetchWord`. -/
theorem withFetchWord_take_pending (s : State) (nbits w : Nat) :
    (s.withFetchWord nbits w).take s.pending = { s with fault := none } := rfl

/-- Settles O10: the word's request decodes as its key (O6), and the step performs the decoded operation
of the request at the head of the list (O9). -/
theorem tableWordIsPerformedNext : Obligations.TableWordIsPerformedNext := by
  intro s nbits w i t hw hexec
  have hd : decode ((Request.ofEncoded s.slot (tableWord nbits w)).encoded s.slot) = .ok i :=
    (portRequestIsDecodedAsItsKey _ _).trans (decodeTableWord_eq_some_iff.1 hw)
  have hstep := stepPerformsTheDecodedOperation (s.withFetchWord nbits w) _ s.pending i rfl rfl hd
    fun _ => ofEncoded_width_region _ _
  rw [← State.take, withFetchWord_take_pending, hexec] at hstep
  exact ⟨_, hd, hstep⟩

end Sys2Proof.Machine
end
